-- ==== Sys2Proof/Word.lean ====
section
/-!
DEFINITION. The word types of the panel: a register is 32 bits (R17), a memory byte 8, a general register of a
control core 64 (R67). The bit-field helpers stand in Machine/Bits.lean.
-/

namespace Sys2Proof

/-- One byte of a memory, a packet or a command payload. -/
abbrev Byte := BitVec 8

/-- One register, one instruction word of a short form, one vector word (R17, R68, R70). -/
abbrev Word := BitVec 32

/-- One general register of a control core (R67). -/
abbrev DWord := BitVec 64

end Sys2Proof
end

