-- ==== Sys2Proof/Syntax.lean ====
section
/-!
DEFINITION. The commands of the panel, whole: one constructor of `Instr` for each row of the command table. Each docstring
names the row and its rule. Operands are what the outside world supplies: the writing agent and the data of a register
write, the contents of an arriving packet, a training result, a temperature. Dies, pages, Benches, Faces and rings are
`Fin`, so that no command names a unit the panel does not have.
-/

namespace Sys2Proof

/-- The four agents that write registers (R25). DESIGN CHOICE: log entry 101. -/
inductive Agent where
  | host
  | fw
  | carapace
  | safety
  deriving DecidableEq, Repr

/-- A die number (R14, R16). -/
abbrev DieId := Fin 23

/-- A Bench ID, which is its die number (R3). -/
abbrev BenchId := Fin 16

/-- A command ring (R341). -/
abbrev RingId := Fin 65

/-- One page of one die (R16). -/
structure PageId where
  die : DieId
  page : Fin 256
  deriving DecidableEq, Repr

/-- One write of one bus cycle to BAR0 or to BAR2: its agent, the byte offset in the BAR, the data and the byte enables (R17, R26,
R335). -/
structure BusWrite where
  agent : Agent
  bar2 : Bool
  offset : Nat
  data : Word
  be : BitVec 4
  deriving DecidableEq, Repr

/-- A whole-register write to the register of a page that its row names. -/
structure PageWrite where
  agent : Agent
  page : PageId
  data : Word
  deriving DecidableEq, Repr

/-- A read of BAR0 or of BAR2: the byte offset and the number of bytes, 1, 2, 4 or 8 (R17, R335). -/
structure BusRead where
  bar2 : Bool
  offset : Nat
  size : Nat
  deriving DecidableEq, Repr

/-- How a host read fails (R359): Unsupported Request, Completer Abort, poisoned data, an ECRC error, or no completion in time.
DEDUCED: log entry 6. -/
inductive ReadFailure where
  | unsupported
  | aborted
  | poisoned
  | ecrc
  | timedOut
  deriving DecidableEq, Repr

/-- What lifts an MSI-X mask (R340): one vector's mask bit, or the function's. -/
inductive MaskLift where
  | vector (v : Fin 128)
  | function
  deriving DecidableEq, Repr

/-- A control core that runs Sett: a Face's, or one of a Molt's eight strands (R67, R313). -/
inductive CoreId where
  | face (b : BenchId) (f : Fin 6)
  | strand (b : BenchId) (k : Fin 8)
  deriving DecidableEq, Repr

/-- A unit with instruction queues: Face 0 to 5 of a Bench, or, as 6, its Molt (R79, R313). -/
structure UnitId where
  bench : BenchId
  unit : Fin 7
  deriving DecidableEq, Repr

/-- The six unit queues, in the order of FCC_QOCC (R67, R96). -/
inductive QueueId where
  | slab
  | chute
  | weevil
  | hauler
  | coll
  | task
  deriving DecidableEq, Repr

/-- The two output rings of a VE (R147). -/
inductive RingSel where
  | output
  | save
  deriving DecidableEq, Repr

/-- The two channels of a Sieve (R167). -/
inductive SieveChan where
  | d
  | v
  deriving DecidableEq, Repr

/-- A Hauler: Face Hauler 0 to 5, or, as 6, the Bench Hauler (R201). -/
structure HaulerId where
  bench : BenchId
  idx : Fin 7
  deriving DecidableEq, Repr

/-- The agent of a translation, as XLT_FAULT.SRC names it (R223): kind 0 Face Hauler, 1 Bench Hauler, 2 Weevil,
3 collective, 4 Molt. -/
structure XltAgent where
  face : Fin 8
  kind : Fin 5
  deriving DecidableEq, Repr

/-- A memory controller: HBM controller A or B of a Bench, or an LPDDR5X controller of a Stockpile (R254, R256). -/
inductive MemCtl where
  | hbm (b : BenchId) (stack : Fin 2)
  | stk (q : Fin 4) (pkg : Fin 4)
  deriving DecidableEq, Repr

/-- What the ECC of a line finds on a read of it (R250). -/
inductive EccEvent where
  | clean
  | corrected
  | uncorrectable
  deriving DecidableEq, Repr

/-- An accumulator word that an operation reads with bad parity (R135): Slab of the Face, logical column, slot. -/
structure ParityHit where
  slab : Fin 4
  col : BitVec 7
  slot : BitVec 9
  deriving DecidableEq, Repr

/-- A fabric port: ports 0 to 4 of a Bench are N, E, S, W and spur; ports 0 to 3 of a die 16 to 20 (R11, R23). -/
structure PortId where
  die : Fin 21
  port : Fin 5
  deriving DecidableEq, Repr

/-- A packet of the fabric, by the header fields of R265: those of word 0, word 1 of a long header (0 for a short one), and the bytes of
its LEN data flits. -/
structure Packet where
  ptype : BitVec 8
  vc : BitVec 3
  ddie : BitVec 5
  tgt : BitVec 5
  wp0 : BitVec 5
  wp1 : BitVec 5
  len : BitVec 4
  sdie : BitVec 5
  tag : BitVec 14
  sts : BitVec 4
  aux : BitVec 6
  word1 : BitVec 64
  data : List Byte
  deriving DecidableEq, Repr

/-- What the link does to the frame that it carries (R264): the symbols that FEC corrects on each lane, and the errors that FEC
leaves, each the position of one of the frame's 2,560 bytes and what is added to it. DEDUCED: log entry 6. -/
structure LinkNoise where
  corrected : List Nat
  errors : List (Nat × Byte)
  deriving DecidableEq, Repr

/-- The training outcome of one link, named by one of its two ports, and the answer that its DISC meets (R260, R273). -/
structure LinkReport where
  port : PortId
  tx : BitVec 18
  rx : BitVec 18
  numberOk : Bool
  typeOk : Bool
  deriving DecidableEq, Repr

/-- What the links show during discovery (R272, R273). -/
structure DiscoveryReport where
  links : List LinkReport
  deriving DecidableEq, Repr

/-- A temperature sensor (R416): the die and its number on that die; on a Bench 0 to 7 are the die's, 8 and 9 those of
stacks A and B. -/
structure SensorId where
  die : Fin 21
  idx : Fin 10
  deriving DecidableEq, Repr

/-- One reading of a sensor, in °C. -/
structure TempReading where
  sensor : SensorId
  degC : Nat
  deriving DecidableEq, Repr

/-- The commands of the panel, one for each row of the command table. DEDUCED: log entry 6. -/
inductive Instr where
  /-- REGISTER_WRITE (R27). An MMIO or agent write to a register that has no row of its own is judged by the Weighbridge and then applied or dropped. -/
  | registerWrite (ws : List BusWrite)
  /-- CTL_SRST (R33). A CTL write with SRST set discards the block's in-flight work and returns the page's registers to their reset values, keeping OWNER, LOCK and GEN. -/
  | ctlSrst (w : PageWrite)
  /-- CTL_QUIESCE_REQUEST (R33). A CTL write that sets QSC stops the block taking new work and lets in-flight work finish or stop as its chapter defines. -/
  | ctlQuiesceRequest (w : PageWrite)
  /-- CTL_QUIESCE_CLEAR (R33). A CTL write that clears QSC clears STAT.QSD and lets the block accept work again. -/
  | ctlQuiesceClear (w : PageWrite)
  /-- CTL_ENABLE (R28). A CTL write that sets EN from 0 to 1 sets STAT.CHK and starts the page's consistency check. -/
  | ctlEnable (w : PageWrite)
  /-- CTL_DISABLE (R33). A CTL write that clears EN is accepted if the block is idle or quiesced and no enabled page requires it; otherwise it is refused with 0x000C or 0x000E. -/
  | ctlDisable (w : PageWrite)
  /-- CTL_LOCK (R33). A CTL write that sets LOCK locks the page until its reset, after the write's other bits have acted. -/
  | ctlLock (w : PageWrite)
  /-- CONSISTENCY_CHECK_RESULT (R28). The page's consistency check ends in acceptance or refusal, and the shadow receives CTL.EN, STAT, REFUSE and GEN in one update that clears STAT.CHK. -/
  | consistencyCheckResult (p : PageId)
  /-- HELD_WRITE_APPLY (R34). A write held while STAT.CHK was 1 is judged once the check's result reaches the shadow. -/
  | heldWriteApply (p : PageId)
  /-- QUIESCED (R33). Once the quiesced block's in-flight work has ended, the block sets STAT.QSD. -/
  | quiesced (p : PageId)
  /-- READ_CLEAR (R38). A read of an RC register returns the shadow value and clears it, and the clear is forwarded to the block. -/
  | readClear (r : BusRead)
  /-- IRQ_SET (R22). A write of IRQ_SET sets the matching IRQ_STAT bits of the page. -/
  | irqSet (w : PageWrite)
  /-- WBG_DRAIN (R39). A write of WBG_DRAIN.GO starts a write drain, and WBG_DRSTAT reads busy until every earlier write has been applied or dropped. -/
  | wbgDrain (a : Agent) (data : Word)
  /-- WRITE_DRAIN_DONE (R39). Every write decoded before the drain has been applied or dropped, and WBG_DRSTAT.BUSY clears. -/
  | writeDrainDone
  /-- WBG_IRQREARM (R340). A write of WBG_IRQREARM resends vector 65 + d for each written die whose WBG_IRQSUM bit is 1. -/
  | wbgIrqrearm (a : Agent) (data : Word)
  /-- MSIX_VECTOR_UNMASK (R340). Lifting an MSI-X mask sends each message whose pending bit was set while the vector was masked. -/
  | msixVectorUnmask (m : MaskLift)
  /-- REGWR (R337). A forwarded register-write packet reaches its block, which applies the write in decode order and answers with REGACK. -/
  | regwr (p : PageId)
  /-- REGACK (R337). The Weighbridge receives the acknowledgement of an applied register write. -/
  | regack (tag : Nat)
  /-- SHUPD (R337). A shadow-update packet reaches the Weighbridge, which writes the values into its shadows. -/
  | shupd (p : PageId) (off : Nat) (vals : List Word)
  /-- SHREQ (R337). A page receives a shadow request and sends a full SHUPD of its shadowed registers. -/
  | shreq (p : PageId)
  /-- SYS_NOP (R72). The control core executes the SYS NOP instruction. -/
  | sysNop (c : CoreId)
  /-- PARK (R91). The control core executes SYS PARK, stops with CAUSE 1 and records its tag and the next PC. -/
  | park (c : CoreId)
  /-- TRAP (R85). The control core executes SYS TRAP, which raises exception 0x0207 with the tag in FCC_EXC_VAL. -/
  | trap (c : CoreId)
  /-- FENCE (R80). The control core executes SYS FENCE and stalls until every earlier ST and VST of the Face is visible on the Bench. -/
  | fence (c : CoreId)
  /-- SWAP (R89). The control core executes SYS SWAP, which requests a bank swap and continuation at IMM15 × 4 in the incoming bank. -/
  | swap (c : CoreId)
  /-- BANK_SWAP_COMMIT (R89). Once no started Hauler descriptor writes the incoming bank, the active instruction bank changes in one cycle and IRQ_STAT.BLK.SWAP rises. -/
  | bankSwapCommit (c : CoreId)
  /-- ALU (R72). The control core executes an ALU register-register operation selected by FN. -/
  | alu (c : CoreId)
  /-- ADDI (R72). The control core adds a signed immediate to a general register. -/
  | addi (c : CoreId)
  /-- ANDI (R72). The control core ANDs a general register with an immediate. -/
  | andi (c : CoreId)
  /-- ORI (R72). The control core ORs a general register with an immediate. -/
  | ori (c : CoreId)
  /-- XORI (R72). The control core XORs a general register with an immediate. -/
  | xori (c : CoreId)
  /-- SHI (R72). The control core shifts a general register by an immediate amount. -/
  | shi (c : CoreId)
  /-- MOVW (R72). The control core moves a 16-bit immediate into a halfword of a general register, clearing or keeping the other bits. -/
  | movw (c : CoreId)
  /-- LD (R72). The control core loads a scalar from the Face store. -/
  | ld (c : CoreId)
  /-- ST (R72). The control core stores a scalar to the Face store as a posted write. -/
  | st (c : CoreId)
  /-- BR (R72). The control core executes a conditional branch. -/
  | br (c : CoreId)
  /-- JAL (R72). The control core jumps by an offset and writes the link register. -/
  | jal (c : CoreId)
  /-- JALR (R72). The control core jumps to a register plus an immediate and writes the link register. -/
  | jalr (c : CoreId)
  /-- CSR (R69). The control core reads a system register and optionally writes, sets or clears its bits. -/
  | csr (c : CoreId)
  /-- LSEL_WRITE (R316). A Molt strand writes CSR LSEL, which opens pass 1 or pass 2 of a layer for all strands. -/
  | lselWrite (c : CoreId)
  /-- FSET (R98). SYNC FSET sets one flag. -/
  | fset (c : CoreId)
  /-- FCLR (R98). SYNC FCLR clears one flag. -/
  | fclr (c : CoreId)
  /-- CADD (R98). SYNC CADD adds a signed value to one counter. -/
  | cadd (c : CoreId)
  /-- CSET (R98). SYNC CSET loads a counter from a general register. -/
  | cset (c : CoreId)
  /-- VF32 (R72). The VE executes an FP32 lane operation selected by FN. -/
  | vf32 (c : CoreId)
  /-- VTABF (R153). The VE evaluates a forward function table on each selected word. -/
  | vtabf (c : CoreId)
  /-- VTABD (R153). The VE evaluates a derivative function table on each selected word. -/
  | vtabd (c : CoreId)
  /-- VBF16 (R72). The VE executes a BF16 lane operation with rounding and saturation. -/
  | vbf16 (c : CoreId)
  /-- VFP16 (R72). The VE executes an FP16 lane operation with rounding and saturation. -/
  | vfp16 (c : CoreId)
  /-- VI32 (R72). The VE executes an INT32 lane operation. -/
  | vi32 (c : CoreId)
  /-- VCMP (R72). The VE compares lanes and writes a predicate. -/
  | vcmp (c : CoreId)
  /-- VCVT (R448). The VE converts N elements from one format to another under RND and SAT. -/
  | vcvt (c : CoreId)
  /-- VLD (R74). The VE loads a vector register from the Face store, widening as the format gives. -/
  | vld (c : CoreId)
  /-- VST (R74). The VE stores the predicated words of a vector register to the Face store. -/
  | vst (c : CoreId)
  /-- VCOMPRESS (R155). The VE packs the selected words of vA into the low words of vD. -/
  | vcompress (c : CoreId)
  /-- VEXPAND (R155). The VE scatters the low words of vA into the selected words of vD. -/
  | vexpand (c : CoreId)
  /-- VBCAST (R72). The VE broadcasts a general register's low word to every word of vD. -/
  | vbcast (c : CoreId)
  /-- VMOVG (R72). The VE moves one word of a vector register into a general register. -/
  | vmovg (c : CoreId)
  /-- VSUMMARY (R156). The VE writes a summary of the selected words into a general register. -/
  | vsummary (c : CoreId)
  /-- VIOTA (R72). The VE writes each word's index into vD. -/
  | viota (c : CoreId)
  /-- PRED (R72). The control core executes a predicate operation selected by FN. -/
  | pred (c : CoreId)
  /-- MMA (R124). The MMA long form is issued into the Slab queue. -/
  | mma (c : CoreId)
  /-- MMA_ACC (R124). The MMA_ACC long form is issued into the Slab queue. -/
  | mmaAcc (c : CoreId)
  /-- TILE_LOAD_STATIONARY (R121). The TILE_LOAD_STATIONARY long form is issued into the Slab queue. -/
  | tileLoadStationary (c : CoreId)
  /-- TILE_DRAIN (R126). The TILE_DRAIN long form is issued into the Slab queue. -/
  | tileDrain (c : CoreId)
  /-- CHUTE_MV (R138). The CHUTE_MV long form is issued into the Chute queue. -/
  | chuteMv (c : CoreId)
  /-- HAUL (R202). The HAUL long form is issued into the Hauler queue. -/
  | haul (c : CoreId)
  /-- WGATHER_ROWS (R175). The WGATHER long form in mode ROWS is issued into the Weevil queue. -/
  | wgatherRows (c : CoreId)
  /-- WGATHER_EXPAND (R175). The WGATHER long form in mode EXPAND is issued into the Weevil queue. -/
  | wgatherExpand (c : CoreId)
  /-- WGATHER_PACK (R175). The WGATHER long form in mode PACK is issued into the Weevil queue. -/
  | wgatherPack (c : CoreId)
  /-- WMERGE (R176). The WMERGE long form is issued into the Weevil queue. -/
  | wmerge (c : CoreId)
  /-- WSEGRED (R177). The WSEGRED long form is issued into the Weevil queue. -/
  | wsegred (c : CoreId)
  /-- WROUTE (R191). The WROUTE long form is issued into the Weevil queue. -/
  | wroute (c : CoreId)
  /-- COLL (R79). The COLL long form is issued into the collective queue. -/
  | coll (c : CoreId)
  /-- TASK_BEGIN (R321). The TASK_BEGIN long form is issued; it starts when no task is open and puts the Bench in state SPEC. -/
  | taskBegin (c : CoreId)
  /-- TASK_END (R328). The TASK_END long form with operation END is issued to close the open task. -/
  | taskEnd (c : CoreId)
  /-- GUARD (R325). The TASK_END long form with operation GUARD starts, samples the named flags and, with GRP = 1, starts the group exchange. -/
  | guard (u : UnitId)
  /-- TASK_END_ABORT (R327). The TASK_END long form with operation ABORT starts and discards the open task. -/
  | taskEndAbort (u : UnitId)
  /-- LSYNC (R79). The control core reaches LSYNC and holds until its WAIT is satisfied. -/
  | lsync (c : CoreId)
  /-- LSYNC_RELEASE (R103). The WAIT of a held LSYNC is satisfied; it gives its SIGNAL, and issue continues in the next cycle. -/
  | lsyncRelease (c : CoreId)
  /-- QUEUE_ENTRY_START (R79). A queue head whose WAIT is satisfied and whose unit is free starts, popping its token in token mode. -/
  | queueEntryStart (u : UnitId) (q : QueueId) (par : List ParityHit)
  /-- SLAB_LOAD_COMPLETE (R127). A stationary load completes its last write to the banks. -/
  | slabLoadComplete (u : UnitId) (k : Nat)
  /-- SLAB_STREAM_COMPLETE (R127). A streaming MMA or MMA_ACC completes with its last accumulator write. -/
  | slabStreamComplete (u : UnitId)
  /-- COMPLETION_TOKEN_PUSH (R106). An operation held by a full token queue pushes its token once the queue has room, and frees its unit. -/
  | completionTokenPush (u : UnitId) (q : QueueId)
  /-- TILE_ENTER_QUEUE (R144). A drained tile with DQ = 1 enters the tile queue once an entry is free. -/
  | tileEnterQueue (u : UnitId)
  /-- TILE_DRAIN_COMPLETE (R127). A drain completes after its last tile is written, or after the VE releases its last queue entry. -/
  | tileDrainComplete (u : UnitId)
  /-- CHUTE_COMPLETE (R141). A CHUTE_MV operation completes after its last result write. -/
  | chuteComplete (u : UnitId)
  /-- SLB_TEST (R135). A write of SLB_TEST.GO starts the Slab self-test, or is refused while enabled or while a test is running. -/
  | slbTest (w : PageWrite)
  /-- SELF_TEST_DONE (R135). The Slab self-test ends, writes the failing pairs to SLB_TFAIL and sets TDONE. -/
  | selfTestDone (b : BenchId) (slab : Fin 24) (failing : BitVec 64)
  /-- RING_SLOT_COMPLETE (R149). A ring slot's eighth write becomes visible, and the VE applies the ring signal in the following cycle. -/
  | ringSlotComplete (u : UnitId) (r : RingSel)
  /-- RING_SIGNAL_DEFERRED (R149). A waiting KIND 2 ring signal pushes its tokens once the queue has room. -/
  | ringSignalDeferred (u : UnitId)
  /-- VEC_SEED_LD (R157). A write of VEC_SEED_LD.LD loads the rounding register's state from the seed registers. -/
  | vecSeedLd (w : PageWrite)
  /-- SIEVE_TENSOR_CLOSE (R170). After a tensor's last blocks are written, the Sieve writes the compressed metadata or expands the tensor densely, and then writes the header. -/
  | sieveTensorClose (u : UnitId) (ch : SieveChan)
  /-- WEEVIL_OP_COMPLETE (R180). A WGATHER, WMERGE or WSEGRED operation completes 12 cycles after its last access. -/
  | weevilOpComplete (u : UnitId)
  /-- WROUTE_COMPLETE (R197). WROUTE completes after its probes and its pad-entry, count-table and balance-table writes. -/
  | wrouteComplete (u : UnitId)
  /-- RSIG (R110). A remote-signal packet reaches its target Face and is applied as a flag, a counter add or a token push. -/
  | rsig (p : Packet)
  /-- REMOTE_SIGNAL_ROOM_APPLY (R110). A remote signal that waited for room in a token queue is applied. -/
  | remoteSignalRoomApply (u : UnitId)
  /-- DEP_STALL (R114). When the stall window expires with no change, the Face is reported as stalled in BEN_DEP_STALL and BEN_DEP_WAITn. -/
  | depStall (u : UnitId)
  /-- DEPMODE_WRITE (R108). A write of FCC_CTL.DEPMODE changes the dependence mode and clears flags, counters and token queues, or is refused. -/
  | depmodeWrite (w : PageWrite)
  /-- FCC_RESUME (R93). A write of FCC_RESUME.GO, or of MLT_RESUME.GO, resumes a parked core, optionally swapping banks or using the resume PC. -/
  | fccResume (w : PageWrite)
  /-- FCC_EXC_CLR (R83). A write of FCC_EXC_CLR.CLR, or of MLT_EXC_CLR.CLR, clears the exception record and STAT.FLT. -/
  | fccExcClr (w : PageWrite)
  /-- BENCH_HAULER_ACCEPT (R201). A HAUL bound for the Bench Hauler is accepted once one of its 16 places is free. -/
  | benchHaulerAccept (u : UnitId)
  /-- HAUL_COMPLETE (R214). A Hauler descriptor completes when its last write is visible, then gives its SIGNAL and sends its remote signal. -/
  | haulComplete (h : HaulerId)
  /-- HLR_KICK (R220). A write of HLR_KICK marks a standing slot pending, or is recorded as fault 0x080E. -/
  | hlrKick (w : PageWrite)
  /-- KICK_RUN_START (R220). At the next descriptor boundary, the pending standing slots run in ascending order. -/
  | kickRunStart (h : HaulerId)
  /-- XLT_INV (R219). A write of XLT_INV.GO discards every held translation and sets IBUSY. -/
  | xltInv (w : PageWrite)
  /-- XLT_INV_DONE (R219). Every walk that began before the invalidation has ended, and IBUSY clears. -/
  | xltInvDone (b : BenchId)
  /-- XLT_WALK_DONE (R217). A translation walk ends with a mapping or a fault, and its side continues. -/
  | xltWalkDone (b : BenchId) (ag : XltAgent) (va : DWord) (wr : Bool)
  /-- BANK_CAP_RELEASE (R231). A request held by the bank cap takes a slot in the cycle after a slot of its bank is freed. -/
  | bankCapRelease (b : BenchId)
  /-- MEMORY_REQUEST_TIMEOUT (R232). A tier N or tier C request unanswered within the controller time-out ends with 0x090A. -/
  | memoryRequestTimeout (b : BenchId) (tag : Nat)
  /-- GAL_FLUSH_WRITEBACK (R237). A write of GAL_FLUSH with OP 1 writes back every dirty home line. -/
  | galFlushWriteback (w : PageWrite)
  /-- GAL_FLUSH_INVALIDATE (R237). A write of GAL_FLUSH with OP 2 writes back every dirty home line and then invalidates the cache. -/
  | galFlushInvalidate (w : PageWrite)
  /-- GAL_FLUSH_DONE (R237). A flush ends, STAT.BLK.FLUSH clears and FLUSHD is set. -/
  | galFlushDone (b : BenchId)
  /-- GAL_EPOCH_FENCE (R242). A write of GAL_EPOCH.FENCE invalidates earlier prefetched lines, marks in-flight prefetches and advances the epoch. -/
  | galEpochFence (w : PageWrite)
  /-- GALLERY_WAY_CLEAR_DONE (R236). After an accepted enable, the zeroing and invalidation of the changed ways ends, STAT.BLK.CLR clears and requests proceed. -/
  | galleryWayClearDone (b : BenchId)
  /-- HBM_TRAIN (R249). A write of HBM_TRAIN.GO starts stack training, or is refused with 0x0922 while enabled. -/
  | hbmTrain (w : PageWrite)
  /-- HBM_TRAIN_DONE (R249). HBM training ends with TRN passed or failed, and TDONE is set. -/
  | hbmTrainDone (b : BenchId) (stack : Fin 2) (failing : List (Nat × Nat))
  /-- STK_TRAIN (R256). A write of STK_TRAIN.GO starts LPDDR5X training, or is refused with 0x0931 while enabled. -/
  | stkTrain (w : PageWrite)
  /-- STK_TRAIN_DONE (R252). LPDDR5X training ends with TRN passed or failed. -/
  | stkTrainDone (q : Fin 4) (pkg : Fin 4) (failing : List (Nat × Nat))
  /-- PATROL_SCRUB (R251). The patrol scrub reads, corrects and rewrites a line of the stack, each line once per 24 hours. -/
  | patrolScrub (c : MemCtl) (line : Nat) (e : EccEvent)
  /-- REDUCE (R296). A REDUCE collective starts once its combining-buffer slots are free: it builds its trees and grants, then contributes. -/
  | reduce (u : UnitId)
  /-- GATHER (R296). A GATHER collective starts and sends each rank's shard down its tree. -/
  | gather (u : UnitId)
  /-- BCAST (R296). A BCAST collective starts and sends rank ROOT's elements to every member. -/
  | bcast (u : UnitId)
  /-- ATOMIC_BATCH (R244). A COLL with KIND 0xA0 applies its atomic elements to Gallery scratch in index order. -/
  | atomicBatch (u : UnitId)
  /-- ATOMIC_BATCH_COMPLETE (R245). An atomic batch completes when its last result is written or its last element has applied. -/
  | atomicBatchComplete (u : UnitId)
  /-- PREFETCH (R240). A COLL with KIND 0xA1 places lines of its ranges as prefetched or home lines, with an optional epoch fence first. -/
  | prefetch (u : UnitId)
  /-- PREFETCH_COMPLETE (R240). A prefetch completes when every line has been placed or skipped, then gives its SIGNAL and RSIG. -/
  | prefetchComplete (u : UnitId)
  /-- FRAME_RECEIVE (R264). A link receiver takes a whole frame, corrects it with FEC, checks its CRC and processes ACK, NAK and credits. -/
  | frameReceive (p : PortId) (n : LinkNoise)
  /-- RDREQ (R266). A read request packet reaches its target, which answers with RDRSP. -/
  | rdreq (p : Packet)
  /-- RDRSP (R266). A read response reaches the requester, delivers its data or status, and frees the request slot. -/
  | rdrsp (p : Packet)
  /-- WRREQ (R266). A write request packet reaches its target, which answers with WRACK. -/
  | wrreq (p : Packet)
  /-- WRACK (R266). A write acknowledgement reaches the requester and frees its slot, or ends a fence, FCTL or SIGNAL step. -/
  | wrack (p : Packet)
  /-- ATOMREQ (R266). An atomic request packet reaches the target Gallery and is applied there. -/
  | atomreq (p : Packet)
  /-- ATOMRSP (R266). An atomic response reaches the requester with the old value. -/
  | atomrsp (p : Packet)
  /-- DISC (R273). A discovery packet reaches a die, which takes or confirms its number and answers with DISCRSP. -/
  | disc (p : Packet)
  /-- DISCRSP (R273). A discovery response reaches the Weighbridge with the die's type and number. -/
  | discrsp (p : Packet)
  /-- RTLOAD (R289). A route-table load packet reaches a die, which replaces its route table in one link cycle. -/
  | rtload (p : Packet)
  /-- FCTL_ENTER (R285). A fenced Bench receives FCTL ENTER, puts the fence in force and quiesces under MODE. -/
  | fctlEnter (p : Packet)
  /-- FCTL_MODE (R285). A fencing Bench receives FCTL MODE and continues its quiesce in discard mode. -/
  | fctlMode (p : Packet)
  /-- FCTL_LEAVE (R285). A fenced Bench receives FCTL LEAVE and again accepts every packet type. -/
  | fctlLeave (p : Packet)
  /-- LNK_TRAIN (R288). A write of LNK_TRAIN.GO trains the link, taking an UP link DOWN first. -/
  | lnkTrain (w : PageWrite)
  /-- LINK_TRAINING_DONE (R260). Link training ends, and the port goes to UP or FAILED. -/
  | linkTrainingDone (p : PortId) (tx rx : BitVec 18)
  /-- LANE_SWAP (R261). A lane whose corrected-symbol count exceeds LTHR in a window is replaced by a spare. -/
  | laneSwap (p : PortId) (lane : Fin 18)
  /-- LANE_SWAP_DONE (R261). A lane swap ends and the direction returns to UP. -/
  | laneSwapDone (p : PortId)
  /-- DISCOVERY (R272). The boot ROM runs discovery: it reads the retirement fuses, trains the links row by row, confirms the dies and loads the routes. -/
  | discovery (rep : DiscoveryReport)
  /-- LNK_FENCE (R281). A write of LNK_FENCE with READMIT = 0 requests the fence of a Bench, which is refused or recomputes and loads routes and sends ENTER. -/
  | lnkFence (a : Agent) (data : Word)
  /-- LNK_READMIT (R284). A write of LNK_FENCE with READMIT = 1 resets, retrains and readmits a fenced Bench. -/
  | lnkReadmit (a : Agent) (data : Word)
  /-- FENCE_QUIET (R282). When 4,096 link cycles without transit follow fence completion, LNK_FSTAT.QUIET rises. -/
  | fenceQuiet
  /-- FENCE_ENTER_TIMEOUT (R285). No WRACK to ENTER arrives within 8 ms in discard mode, and the fence ends with 0x0A31. -/
  | fenceEnterTimeout
  /-- FABRIC_REQUEST_TIMEOUT (R286). A request slot unanswered for 8 ms ends with 0x0A31, and its agent faults. -/
  | fabricRequestTimeout (b : BenchId) (tag : Nat)
  /-- RDATA (R305). An upward REDUCE chunk reaches a member and is added into its combining slot by the Crusher. -/
  | rdata (p : Packet)
  /-- RGNT (R300). A grant packet reaches a sender, raising its window and carrying the configuration digest. -/
  | rgnt (p : Packet)
  /-- BDATA (R305). A downward chunk reaches a member and is delivered and forwarded to its children. -/
  | bdata (p : Packet)
  /-- LDATA (R309). An EL7 contribution chunk reaches its rank for landing. -/
  | ldata (p : Packet)
  /-- EL7_LAND (R309). An EL7 chunk lands in the landing ring once its slot is released, and LCNT advances when all G contributions have landed. -/
  | el7Land (b : BenchId)
  /-- ABORT (R310). A group-abort packet stops the named collective with 0x0B11 and frees its slots. -/
  | abort (p : Packet)
  /-- CRUSHER_SLOT_COMPLETE (R301). A combining slot completes after its last contribution and sends its chunk on or delivers it. -/
  | crusherSlotComplete (b : BenchId) (seq tree chunk : Nat)
  /-- COLL_COMPLETE (R304). A collective completes at a member when every chunk is sent and delivered, then gives its SIGNAL and RSIG. -/
  | collComplete (b : BenchId) (seq : Nat)
  /-- COLL_TIMEOUT (R310). A collective with no progress for CRU_CFG.TOUT µs stops with 0x0B12. -/
  | collTimeout (b : BenchId) (seq : Nat)
  /-- MOLT_CHUNK_TAKE (R318). The Molt takes a chunk by its LTAG into the pass-1 gradient window. -/
  | moltChunkTake (b : BenchId)
  /-- PASS_CLOSE (R316). A Molt pass closes when every element has been read and written as the pass requires. -/
  | passClose (b : BenchId)
  /-- GUARD_VERDICT (R325). The guard's local or group value is resolved to a clean or unclean verdict. -/
  | guardVerdict (b : BenchId)
  /-- SPEC_DRAIN_DONE (R326). Every held line has drained, DRAIN clears and a waiting END completes. -/
  | specDrainDone (b : BenchId)
  /-- SPEC_STALL_TIMEOUT (R324). A capacity stall lasting STOUT µs discards the task with 0x0C15. -/
  | specStallTimeout (b : BenchId)
  /-- SQ_TAIL (R342). A doorbell write of SQ_TAIL advances a submission ring's producer count, or halts or is dropped. -/
  | sqTail (ring : RingId) (count : Word)
  /-- CQ_HEAD (R342). A doorbell write of CQ_HEAD advances a completion ring's consumer count, or is dropped. -/
  | cqHead (ring : RingId) (count : Word)
  /-- COMMAND_FETCH (R343). The command engine chooses a ring with pending units and reads its next packet header. -/
  | commandFetch
  /-- HOST_READ_COMPLETION (R343). Host-memory read data arrive; the header is checked or the payload is staged, decrypted and authenticated. -/
  | hostReadCompletion (ring : RingId) (data : List Byte)
  /-- HOST_READ_TIMEOUT (R359). A host read that fails or times out halts the ring with 0x0D40 or 0x0D41. -/
  | hostReadTimeout (ring : RingId) (failure : ReadFailure)
  /-- NOP (R349). The NOP command completes at once. -/
  | nop (ring : RingId)
  /-- WRITE (R349). The WRITE command moves its decrypted payload to the context virtual address through the anchor Bench Hauler. -/
  | writeCmd (ring : RingId)
  /-- READ (R349). The READ command reads LEN bytes from a context virtual address into its completion. -/
  | readCmd (ring : RingId)
  /-- CODE (R349). The CODE command writes its payload into the instruction banks of the named Faces or Molts. -/
  | code (ring : RingId)
  /-- RUN (R349). The RUN command resumes the named Faces and completes when each has parked. -/
  | run (ring : RingId)
  /-- SIGNAL (R350). The SIGNAL command checks and sends a remote-signal word and completes on its answer. -/
  | signal (ring : RingId)
  /-- TIMESNAP (R352). The TIMESNAP command samples the counter of every reachable die. -/
  | timesnap (ring : RingId)
  /-- SAMPLE_REQUEST (R352). A die receives a TIMESNAP sample request and returns its counter. -/
  | sampleRequest (d : DieId)
  /-- CREATE (R365). The CREATE command draws and loads a new context key and makes the context CREATED. -/
  | create (ring : RingId)
  /-- ASSIGN (R365). The ASSIGN command moves the named Benches to a context and clears them. -/
  | assign (ring : RingId)
  /-- START (R365). The START command makes a context RUNNING. -/
  | start (ring : RingId)
  /-- STOP (R365). The STOP command aborts the context's ring, quiesces its Benches and makes it STOPPED. -/
  | stop (ring : RingId)
  /-- DESTROY (R365). The DESTROY command returns the context's Benches to context 0, erases its keys and makes it NONE. -/
  | destroy (ring : RingId)
  /-- KEYX (R370). The KEYX command agrees a session key by ECDH and returns a signed reply. -/
  | keyx (ring : RingId)
  /-- QUOTE (R371). The QUOTE command returns a signed attestation quote over a challenge. -/
  | quote (ring : RingId)
  /-- EXPORT (R373). The EXPORT command reads context data and returns it sealed to the tenant's export key, or in plaintext. -/
  | exportData (ring : RingId)
  /-- COMMAND_COMPLETE (R346). A command ends: its completion is written, the CQ tail advances, writeback occurs and the vector is sent when due. -/
  | commandComplete (ring : RingId) (k : Nat)
  /-- COMMAND_TIMEOUT (R351). A command that exceeds CMD_TOUT completes with STATUS 7. -/
  | commandTimeout (ring : RingId) (k : Nat)
  /-- CQ_IRQ_COALESCE_TIMER (R346). CMD_CQIRQ.US µs after the first interrupting completion, the ring's vector becomes due. -/
  | cqIrqCoalesceTimer (ring : RingId)
  /-- RATCHET (R379). The mailbox RATCHET operation raises the fuse security version. -/
  | ratchet
  /-- OWNPROG (R379). The mailbox OWNPROG operation programs an owner key slot. -/
  | ownprog
  /-- OWNREV (R379). The mailbox OWNREV operation revokes an owner key slot. -/
  | ownrev
  /-- RETIRE (R379). The mailbox RETIRE operation fuses the retirement of a Bench. -/
  | retire
  /-- COLBYP (R379). The mailbox COLBYP operation fuses a Slab column-pair bypass record. -/
  | colbyp
  /-- HBMREP (R379). The mailbox HBMREP operation fuses an HBM lane repair record. -/
  | hbmrep
  /-- PELOCK (R379). The mailbox PELOCK operation sets the plaintext-export lock. -/
  | pelock
  /-- FUSE_PROGRAM_DONE (R378). A fuse change finishes its three programming steps, and the mailbox request ends with its code. -/
  | fuseProgramDone (verified : Bool)
  /-- INPUT_IN_RANGE (R412). The 36 V input enters its range, the Safety Partition starts, gives the panel reset and powers up the domains. -/
  | inputInRange
  /-- INPUT_LOST (R415). The input falls below 30 V, and domain 47 itself loses power. -/
  | inputLost
  /-- PERST_N_ASSERT (R425). PERST_N is asserted and resets the Weighbridge, Carapace, the Stockpiles, the Benches and the fuses. -/
  | perstNAssert
  /-- PERST_N_RELEASE (R391). PERST_N is released, and boot stage 0 begins. -/
  | perstNRelease (inputStable : Bool) (romOk drbgOk : Bool)
  /-- HOT_RESET (R425). A PCIe hot reset resets the Weighbridge, Carapace and every die, and retrains the link. -/
  | hotReset
  /-- FUNCTION_LEVEL_RESET (R425). A Function Level Reset resets the Weighbridge, Carapace and every die, with the link staying up. -/
  | functionLevelReset
  /-- BOOT_BUFFER_WRITE (R396). A write into a boot chunk buffer is stored, or is dropped when the buffer is busy or the state forbids it. -/
  | bootBufferWrite (off : Nat) (data : Word) (whole : Bool)
  /-- BOOT_CHUNK (R395). A write of BOOT_CHUNK submits a chunk buffer, or is rejected. -/
  | bootChunk (data : Word)
  /-- CHUNK_ACCEPT (R395). A submitted chunk is hashed, checked and placed, then accepted; after the last chunk, stage 5 begins. -/
  | chunkAccept
  /-- BOOT_RETRY (R404). A write of BOOT_CTL.RETRY discards the download and returns to WAIT. -/
  | bootRetry (data : Word)
  /-- BOOT_STAGE_5 (R402). Boot ends its final checks and writes the bundle measurement entries. -/
  | bootStage5
  /-- BOOT_POLICY_HANDOFF (R410). The safety policy is handed to the Safety Partition and applied, or is refused, giving FATAL. -/
  | bootPolicyHandoff
  /-- BOOT_BENCH_LOAD (R403). The ROM starts the firmware, applies BENCHINIT, loads the images and runs the Slab self-tests. -/
  | bootBenchLoad (failing : List (Nat × BitVec 64))
  /-- FIRMWARE_START_TIMEOUT (R403). Firmware that does not report a start within 50 ms stops boot with 0x0F31. -/
  | firmwareStartTimeout
  /-- READY (R392). The CONFIG entry is written, the measurement log closes and the panel reports READY. -/
  | ready
  /-- DOM_ON (R409). The mailbox DOM_ON operation switches a power domain on. -/
  | domOn
  /-- DOM_OFF (R409). The mailbox DOM_OFF operation switches a power domain off. -/
  | domOff
  /-- DOMAIN_SWITCH_DONE (R411). A domain finishes switching; its die leaves reset and its shadows are refreshed. -/
  | domainSwitchDone
  /-- BENCH_RESET (R409). The mailbox BENCH_RESET operation resets one Bench. -/
  | benchReset
  /-- SET_FREQ (R409). The mailbox SET_FREQ operation sets the mailbox frequency ceiling of the named Benches. -/
  | setFreq
  /-- WD_ARM (R421). The mailbox WD_ARM operation loads the watchdog period and restarts its count. -/
  | wdArm
  /-- WD_KICK (R421). The mailbox WD_KICK operation restarts the watchdog count. -/
  | wdKick
  /-- FAULT_CLR (R422). The mailbox FAULT_CLR operation releases FAULT_N when no cause remains. -/
  | faultClr
  /-- WATCHDOG_EXPIRY (R421). The watchdog expires: the first expiry records, and a second acts under WDACT. -/
  | watchdogExpiry
  /-- INPUT_SAMPLE (R414). Once per µs, the Safety Partition samples the input voltage and current and checks the limits. -/
  | inputSample (volt10mV amp100mA : Nat)
  /-- CURRENT_CEILING_STEP (R414). The current ceiling falls one code every 16 µs above ITHR, or rises one per ms after recovery. -/
  | currentCeilingStep (up : Bool)
  /-- TEMP_SAMPLE (R416). Every 100 µs, the Safety Partition reads every temperature sensor and applies alert, throttle and trip. -/
  | tempSample (t : List TempReading)
  /-- THERMAL_CEILING_STEP (R416). A thermal ceiling rises one code per 10 ms once the sensor has stayed 5 °C below throttle. -/
  | thermalCeilingStep (s : SensorId)
  /-- PLL_RAMP_STEP (R418). A Bench PLL ramps towards its new frequency by up to 100 MHz per 2 µs. -/
  | pllRampStep (b : BenchId)
  /-- PLL_LOCK_LOST (R418). A Bench PLL loses lock, the Bench's domains are switched off and its links are treated as DOWN. -/
  | pllLockLost (b : BenchId)
  /-- PWR_BRAKE_N_ASSERT (R419). PWR_BRAKE_N is asserted, and the Slab weight ports and Chutes advance once in four cycles. -/
  | pwrBrakeNAssert
  /-- PWR_BRAKE_N_RELEASE (R419). PWR_BRAKE_N is released, and the brake lifts. -/
  | pwrBrakeNRelease
  /-- BRAKE_CAP (R420). After BRAKEHOLD ms of continuous brake, every Bench is capped at code 12. -/
  | brakeCap
  /-- BRAKE_CAP_LIFT (R420). After 1 ms of continuous release, the brake cap lifts. -/
  | brakeCapLift
  /-- IDENT (R442). The SMBus IDENT block read returns the device ID, ordering code, retirements and serial number. -/
  | ident
  /-- STATUS (R442). The SMBus STATUS read returns the safety status bits and the boot state. -/
  | status
  /-- SELECT (R443). The SMBus SELECT write chooses the die, page and offset for sideband reads. -/
  | select (bytes : List Byte) (pecOk : Bool)
  /-- SMB_READ (R443). The SMBus READ returns the selected register and advances the offset by 4. -/
  | smbRead
  /-- READ8 (R442). The SMBus READ8 returns two registers from one Safety cycle and advances the offset by 8. -/
  | read8
  /-- EXTEST (R444). The EXTEST instruction drives the boundary-scan cells while PERST_N is asserted. -/
  | extest
  /-- SAMPLE_PRELOAD (R444). The SAMPLE/PRELOAD instruction samples or preloads the boundary-scan register. -/
  | samplePreload (pins : List Bool) (preload : Bool)
  /-- IDCODE (R444). The IDCODE instruction selects the 0x1160_0A35 identification register. -/
  | idcode
  /-- CLAMP (R444). The CLAMP instruction holds the pins while PERST_N is asserted. -/
  | clamp
  /-- HIGHZ (R444). The HIGHZ instruction floats the outputs while PERST_N is asserted. -/
  | highz
  /-- BYPASS (R444). The BYPASS instruction, and every other code, selects the bypass register. -/
  | bypass (code : BitVec 8)
  /-- TRST_N_ASSERT (R444). TRST_N low holds the TAP in Test-Logic-Reset. -/
  | trstNAssert
  /-- PCIE_LINK_UP (R391). PCIe link training ends with the data link layer active, and the boot window opens with STATE WAIT. -/
  | pcieLinkUp (x16 : Bool) (speed : Fin 5)
  /-- BOOT_100_MS_MARK (R390). When PERST_N was released earlier than 100 ms after the input entered its range, stage 0 of boot starts at that 100 ms mark. -/
  | boot100MsMark
  /-- TIMESNAP_SAMPLE_RETURN (R352). A die's sampled counter returns to the Weighbridge and fills its TIMESNAP entry, and the command ends when the last one returns. -/
  | timesnapSampleReturn (d : DieId)
  /-- UNSUPPORTED_REQUEST (R334). A PCIe request that hits neither BAR, a peer request included, completes with Unsupported Request and is counted in WBG_AER_UE. -/
  | unsupportedRequest (isRead : Bool)
  /-- SMBUS_TIMEOUT (R442). The Safety Partition honours the SMBus time-out of 25 to 35 ms and abandons a transaction held that long. -/
  | smbusTimeout
  /-- SAF_IRQ_CLEAR_ON_READ (R427). A host read of the register that a SAF_ IRQ_STAT bit reports clears that bit. -/
  | safIrqClearOnRead (r : BusRead)
  deriving DecidableEq, Repr

end Sys2Proof
end

