-- ==== Sys2Proof/Decode.lean ====
section
/-!
DEFINITION. The command that a word of the command table spells. The table gives no row any bits: commands reach the panel as
events, not as words.
-/

namespace Sys2Proof

/-- No row of the command table has bits, so no word spells a command. DESIGN CHOICE: log entry 2. -/
def decodeTableWord (_nbits _w : Nat) : Option Instr := none

end Sys2Proof
end

