-- ==== Sys2Proof/Config.lean ====
section
/-!
DEFINITION. What the manual leaves open and the model leaves free: constants WITHOUT A BODY, so that nothing in Lean can
compute a value of one. Each is named in a row of notes/assumptions. Those that must answer anew at each use are applied
to the counter `State.fresh`.
-/

namespace Sys2Proof.Config

/-- R447: the value that VF32 RCP returns for a finite non-zero input is a fixed function that the manual does not give;
the model applies the 1-ulp bound and the exact powers of two outside this constant. DESIGN CHOICE: log entry 19. -/
opaque rcpChoice : Word → Bool

/-- R447: as `rcpChoice`, for RSQ: which neighbour within the bound is returned. DESIGN CHOICE: log entry 19. -/
opaque rsqChoice : Word → Bool

/-- R72: which operand MIN or MAX of two zeros of unlike sign returns (true: the first). DEDUCED: log entry 18. -/
opaque zeroPick : Bool

/-- R361, R365, R370, R373: byte `i` of the `n`-th draw of Carapace's random generator.
PRESUMED: log entry 52. DESIGN CHOICE: log entry 85. -/
opaque randomByte : Nat → Nat → Byte

/-- R360: the unique device secret, byte `i`; only Carapace's key logic reads it. DESIGN CHOICE: log entry 86. -/
opaque udsByte : Nat → Byte

/-- R363: the serial number in the factory's fuses, byte `i`. DESIGN CHOICE: log entry 86. -/
opaque serialByte : Nat → Byte

/-- R363: the endorsement in the factory's fuses, byte `i`. DESIGN CHOICE: log entry 86. -/
opaque endorseByte : Nat → Byte

/-- R378: the ratchet bits blown when power was lost during a RATCHET. DESIGN CHOICE: log entry 84. -/
opaque bitsBlown : Nat → Nat

/-- R378: whether the setting of a fuse change had been programmed when power was lost. DESIGN CHOICE: log entry 84. -/
opaque fuseBegun : Nat → Bool

/-- R398, R399: the Brorawin release key (64 bytes) that the boot ROM holds. DESIGN CHOICE: log entry 86. -/
opaque releaseKeyByte : Nat → Byte

/-- R398: the Brorawin safety key (64 bytes) that the boot ROM holds. DESIGN CHOICE: log entry 86. -/
opaque safetyKeyByte : Nat → Byte

/-- R391, R402: byte `i` of the boot ROM. DESIGN CHOICE: log entry 86. -/
opaque romByte : Nat → Byte

/-- R402: the length of the boot ROM in bytes. DESIGN CHOICE: log entry 86. -/
opaque romSize : Nat

/-- R183, R198: how many of its writes an operation had made when it was stopped, by the model's fresh counter.
DESIGN CHOICE: log entry 113. -/
opaque writesMade : Nat → Nat

/-- R169: byte of a tensor whose regions another agent wrote while the tensor was open: undefined.
DESIGN CHOICE: log entry 39. -/
opaque undefinedByte : Nat → Nat → Byte

/-- R233: the set of a Gallery cache line; the manual gives the number of sets and not the function.
DESIGN CHOICE: log entry 53. -/
opaque cacheSet : Nat → Nat

/-- R5, R417: cycles that the clock of die `d` counts during idle step `n` of the model (no common time base).
DESIGN CHOICE: log entries 1, 37, 56. -/
opaque cyclesOfTick : Nat → Nat → Nat

/-- R264: byte `i` of the FEC parity over a frame's other bytes; the manual does not give the field's polynomial or the interleaving.
PRESUMED: log entry 119. -/
opaque fecParity : List Byte → Nat → Byte

/-- R251: whether ECC corrects (1) or cannot correct (2) an error in a line that a controller reads, by the model's fresh counter.
DESIGN CHOICE: log entry 57. -/
opaque eccFinds : Nat → Nat

/-- R236: the cache way that holds a line of the Gallery, where the ways whose role changes are not all of them.
DESIGN CHOICE: log entry 53. -/
opaque cacheWay : Nat → Fin 16

/-- R302: the member's own contribution reached a combining slot before a child's. DEDUCED: log entry 67. -/
opaque ownFirst : Nat → Bool

/-- R402: the number, 0 to 43, of a link in the bitmap of the CONFIG entry, by the die and port of its first end.
DESIGN CHOICE: log entry 100. -/
opaque linkBit : Nat → Nat → Fin 44

/-- R405: the µs from the release of PERST_N at which a boot stage ended. DESIGN CHOICE: log entry 100. -/
opaque stageTime : Nat → Word

/-- R403: where in the Face store (or Molt store) the boot ROM stages an image; the manual gives no place.
DEDUCED: log entry 99. -/
opaque imageStage : Nat → Nat

/-- R256: the temperature in °C that an LPDDR5X package reports; R416 names no reading that gives it.
DESIGN CHOICE: log entry 58. -/
opaque packageTemp : Nat → Byte

/-- R138, R180: what the Chute or the Weevil of a Face loses to collisions during an operation, by the model's fresh counter.
DESIGN CHOICE: log entry 37. -/
opaque lostToCollisions : Nat → Nat

/-- R128, R141: whether an operation reads a line of its operands after (true) or before another agent's write to it that falls
between its start and its completion; by the model's fresh counter and the line. DEDUCED: log entry 34. -/
opaque lineReadLate : Nat → Nat → Bool

/-- R135: what an accumulator word of bad parity holds, by the model's fresh counter. DESIGN CHOICE: log entry 35. -/
opaque badParityWord : Nat → Word

/-- R442: the strap SMB_ADDR that the board ties. PRESUMED: log entry 14. -/
opaque smbStrap : Fin 4

end Sys2Proof.Config
end

