-- ==== Sys2Proof/Machine/Bits.lean ====
section
/-!
DEFINITION. Bit fields, byte order and signed reading of fields (R6): a field is a `Nat`, a register or an address is a
bit vector or its `toNat`.
-/

namespace Sys2Proof.Machine

/-- The `len` bits of `w` from bit `lo` up (R6). -/
def fld (w lo len : Nat) : Nat := (w >>> lo) % 2 ^ len

/-- `w` with its `len` bits from `lo` up replaced by those of `v`. -/
def putFld (w lo len v : Nat) : Nat := w - (fld w lo len) <<< lo + (v % 2 ^ len) <<< lo

/-- A field of a register word. -/
def wfld (w : Word) (lo len : Nat) : Nat := fld w.toNat lo len

/-- A register word with one field replaced. -/
def wput (w : Word) (lo len v : Nat) : Word := BitVec.ofNat 32 (putFld w.toNat lo len v)

/-- Bit `i` of a register word. -/
def wbit (w : Word) (i : Nat) : Bool := w.getLsbD i

/-- A register word with bit `i` set to `b`. -/
def wputBit (w : Word) (i : Nat) (b : Bool) : Word := wput w i 1 b.toNat

/-- A Nat as a register word. -/
def w32 (n : Nat) : Word := BitVec.ofNat 32 n

/-- Bit `i` of a Nat. -/
def nbit (n i : Nat) : Bool := n.testBit i

/-- The `len`-bit field `v` read as a two's complement number. -/
def sext (len v : Nat) : Int := if v % 2 ^ len < 2 ^ (len - 1) then (v % 2 ^ len : Nat) else ((v % 2 ^ len : Nat) : Int) - (2 ^ len : Nat)

/-- An integer reduced modulo `2 ^ len`. -/
def wrap (len : Nat) (i : Int) : Nat := (i % (2 ^ len : Nat)).toNat

/-- `n` little-endian bytes of `v` (R6). -/
def leBytes : Nat → Nat → List Byte
  | 0, _ => []
  | n + 1, v => BitVec.ofNat 8 v :: leBytes n (v / 256)

/-- The little-endian number in a list of bytes (R6). -/
def leNat : List Byte → Nat
  | [] => 0
  | b :: bs => b.toNat + 256 * leNat bs

/-- `n` big-endian bytes of `v`, for the standards that fix that order (R6). -/
def beBytes (n v : Nat) : List Byte := (leBytes n v).reverse

/-- The big-endian number in a list of bytes. -/
def beNat (bs : List Byte) : Nat := leNat bs.reverse

/-- A saturating count of 32 bits (the RC counters, for example R96). -/
def satAdd (w : Word) (n : Nat) : Word := if w.toNat + n ≥ 2 ^ 32 then BitVec.allOnes 32 else BitVec.ofNat 32 (w.toNat + n)

/-- `ceil (a / b)`. -/
def ceilDiv (a b : Nat) : Nat := (a + b - 1) / b

/-- The number of set bits among the low `len` bits. -/
def popCount : Nat → Nat → Nat
  | 0, _ => 0
  | n + 1, v => popCount n v + (if v.testBit n then 1 else 0)

/-- The set bits among the low `len` bits, in ascending order. -/
def bitList (len v : Nat) : List Nat := (List.range len).filter v.testBit

/-- The mask whose set bits are the listed ones. -/
def maskOf (bs : List Nat) : Nat := bs.foldl (fun m b => m ||| (1 <<< b)) 0

/-- The first `n` with `p n` below a bound. -/
def firstBelow (bound : Nat) (p : Nat → Bool) : Option Nat := (List.range bound).find? p

/-- Cut a list into pieces of `n` elements; `fuel` bounds the number of pieces. -/
def chunksOf {α : Type} (n : Nat) : Nat → List α → List (List α)
  | 0, _ => []
  | _ + 1, [] => []
  | f + 1, x :: xs => (x :: xs).take n :: chunksOf n f ((x :: xs).drop n)

/-- The list padded with `d`, or cut, to length `n`. -/
def padTo {α : Type} (n : Nat) (d : α) (l : List α) : List α := (l ++ List.replicate (n - l.length) d).take n

/-- The floor of the base-2 logarithm, bounded by fuel. -/
def log2 (n : Nat) : Nat := n.log2

/-- Two half-open ranges `[a, a + n)` and `[b, b + m)` have a point in common. -/
def rangesMeet (a n b m : Nat) : Bool := a < b + m && b < a + n

end Sys2Proof.Machine
end

