-- ==== Sys2Proof/Machine/Crypto.lean ====
section
/-!
DEFINITION. The cryptographic functions that R247, R347, R360, R361, R370, R373, R375, R397 and R402 name, from their standards:
SHA-256 (FIPS 180-4), HMAC and HKDF (RFC 2104, RFC 5869), AES-256 with GCM and XTS (FIPS 197, SP 800-38D, IEEE 1619), P-256, ECDH and ECDSA
(FIPS 186). PRESUMED: the standards' texts are outside the manual, which names them only.
-/

namespace Sys2Proof.Machine

/-! ### SHA-256 -/

/-- The round constants. -/
def shaK : List Nat :=
  [0x428A2F98, 0x71374491, 0xB5C0FBCF, 0xE9B5DBA5, 0x3956C25B, 0x59F111F1, 0x923F82A4, 0xAB1C5ED5]
    ++ [0xD807AA98, 0x12835B01, 0x243185BE, 0x550C7DC3, 0x72BE5D74, 0x80DEB1FE, 0x9BDC06A7, 0xC19BF174]
    ++ [0xE49B69C1, 0xEFBE4786, 0x0FC19DC6, 0x240CA1CC, 0x2DE92C6F, 0x4A7484AA, 0x5CB0A9DC, 0x76F988DA]
    ++ [0x983E5152, 0xA831C66D, 0xB00327C8, 0xBF597FC7, 0xC6E00BF3, 0xD5A79147, 0x06CA6351, 0x14292967]
    ++ [0x27B70A85, 0x2E1B2138, 0x4D2C6DFC, 0x53380D13, 0x650A7354, 0x766A0ABB, 0x81C2C92E, 0x92722C85]
    ++ [0xA2BFE8A1, 0xA81A664B, 0xC24B8B70, 0xC76C51A3, 0xD192E819, 0xD6990624, 0xF40E3585, 0x106AA070]
    ++ [0x19A4C116, 0x1E376C08, 0x2748774C, 0x34B0BCB5, 0x391C0CB3, 0x4ED8AA4A, 0x5B9CCA4F, 0x682E6FF3]
    ++ [0x748F82EE, 0x78A5636F, 0x84C87814, 0x8CC70208, 0x90BEFFFA, 0xA4506CEB, 0xBEF9A3F7, 0xC67178F2]

/-- The initial hash value. -/
def shaH0 : List Nat := [0x6A09E667, 0xBB67AE85, 0x3C6EF372, 0xA54FF53A, 0x510E527F, 0x9B05688C, 0x1F83D9AB, 0x5BE0CD19]

/-- A 32-bit rotation to the right. -/
def rotr (x n : Nat) : Nat := (x / 2 ^ n + x * 2 ^ (32 - n)) % 2 ^ 32

/-- The message schedule: words are added at the end until there are 64. -/
def shaSchedule : Nat → List Nat → List Nat
  | 0, w => w
  | f + 1, w =>
    let t := w.length
    let x := w.getD (t - 15) 0
    let y := w.getD (t - 2) 0
    let s0 := rotr x 7 ^^^ rotr x 18 ^^^ (x / 8)
    let s1 := rotr y 17 ^^^ rotr y 19 ^^^ (y / 1024)
    shaSchedule f (w ++ [(w.getD (t - 16) 0 + s0 + w.getD (t - 7) 0 + s1) % 2 ^ 32])

/-- One round over the eight working words. -/
def shaRound (v : List Nat) (kw : Nat) : List Nat :=
  let a := v.getD 0 0
  let b := v.getD 1 0
  let c := v.getD 2 0
  let e := v.getD 4 0
  let f := v.getD 5 0
  let g := v.getD 6 0
  let s1 := rotr e 6 ^^^ rotr e 11 ^^^ rotr e 25
  let ch := (e &&& f) ^^^ ((2 ^ 32 - 1 - e) &&& g)
  let t1 := v.getD 7 0 + s1 + ch + kw
  let s0 := rotr a 2 ^^^ rotr a 13 ^^^ rotr a 22
  let mj := (a &&& b) ^^^ (a &&& c) ^^^ (b &&& c)
  [(t1 + s0 + mj) % 2 ^ 32, a, b, c, (v.getD 3 0 + t1) % 2 ^ 32, e, f, g]

/-- One block of 64 bytes. -/
def shaBlock (h : List Nat) (blk : List Byte) : List Nat :=
  let w := shaSchedule 48 ((chunksOf 4 16 blk).map beNat)
  let v := (shaK.zip w).foldl (fun v kw => shaRound v (kw.1 + kw.2)) h
  (h.zip v).map (fun x => (x.1 + x.2) % 2 ^ 32)

/-- SHA-256 of a byte string. PRESUMED: log entry 13. -/
def sha256 (m : List Byte) : List Byte :=
  let pad := m ++ [0x80] ++ List.replicate ((119 - m.length % 64) % 64) 0 ++ beBytes 8 (8 * m.length)
  ((chunksOf 64 pad.length pad).foldl shaBlock shaH0).flatMap (beBytes 4)

/-- HMAC-SHA-256. PRESUMED: log entry 13. -/
def hmac (key m : List Byte) : List Byte :=
  let k := padTo 64 0 (if key.length > 64 then sha256 key else key)
  sha256 (k.map (· ^^^ 0x5C) ++ sha256 (k.map (· ^^^ 0x36) ++ m))

/-- The blocks T(i) of HKDF-Expand. -/
def hkdfBlocks (prk info : List Byte) : Nat → Nat → List Byte → List Byte
  | 0, _, _ => []
  | f + 1, i, t =>
    let x := hmac prk (t ++ info ++ [BitVec.ofNat 8 i])
    x ++ hkdfBlocks prk info f (i + 1) x

/-- HKDF-SHA-256 with a salt, `n` bytes. PRESUMED: log entry 13. -/
def hkdf (ikm salt info : List Byte) (n : Nat) : List Byte := (hkdfBlocks (hmac salt ikm) info (ceilDiv n 32) 1 []).take n

/-- The bytes of an ASCII string. -/
def ascii (t : String) : List Byte := t.toList.map (fun c => BitVec.ofNat 8 c.toNat)

/-! ### AES-256 and GCM -/

/-- A product in GF(2^8) with the AES polynomial; `n` bits of the second factor remain. -/
def gmul8 : Nat → Nat → Nat → Nat
  | 0, _, _ => 0
  | n + 1, a, b => (if b % 2 = 1 then a else 0) ^^^ gmul8 n (if a ≥ 128 then (2 * a) ^^^ 0x11B else 2 * a) (b / 2)

/-- A power in GF(2^8). -/
def gpow8 (a : Nat) : Nat → Nat
  | 0 => 1
  | n + 1 => gmul8 8 a (gpow8 a n)

/-- The S-box: the inverse, then the affine map. -/
def sbox (x : Nat) : Nat :=
  let y := gpow8 x 254
  let r := fun n => (y * 2 ^ n + y / 2 ^ (8 - n)) % 256
  y ^^^ r 1 ^^^ r 2 ^^^ r 3 ^^^ r 4 ^^^ 0x63

/-- The key schedule of AES-256 in words of four bytes. -/
def aesSchedule : Nat → List (List Nat) → List (List Nat)
  | 0, w => w
  | f + 1, w =>
    let i := w.length
    let t := w.getD (i - 1) []
    let t := if i % 8 = 0 then
        let r := (t.drop 1 ++ t.take 1).map sbox
        (r.take 1).map (· ^^^ gpow8 2 (i / 8 - 1)) ++ r.drop 1
      else if i % 8 = 4 then t.map sbox else t
    aesSchedule f (w ++ [((w.getD (i - 8) []).zip t).map (fun x => x.1 ^^^ x.2)])

/-- MixColumns of one column. -/
def mixColumn (c : List Nat) : List Nat :=
  (List.range 4).map (fun i => gmul8 8 (c.getD i 0) 2 ^^^ gmul8 8 (c.getD ((i + 1) % 4) 0) 3 ^^^ c.getD ((i + 2) % 4) 0 ^^^ c.getD ((i + 3) % 4) 0)

/-- Two byte lists added. -/
def xorList (a b : List Nat) : List Nat := (a.zip b).map (fun x => x.1 ^^^ x.2)

/-- The rounds after the first key addition. -/
def aesRounds : Nat → List (List Nat) → List Nat → List Nat
  | 0, _, st => st
  | _ + 1, [], st => st
  | f + 1, k :: ks, st =>
    let st := st.map sbox
    let st := (List.range 16).map (fun i => st.getD ((i + 4 * (i % 4)) % 16) 0)
    let st := if f = 0 then st else (chunksOf 4 4 st).flatMap mixColumn
    aesRounds f ks (xorList st k)

/-- AES-256 of one block. PRESUMED: log entry 13. -/
def aes256 (key blk : List Byte) : List Byte :=
  let w := aesSchedule 52 (chunksOf 4 8 (key.map (·.toNat)))
  let ks := (chunksOf 4 15 w).map (·.flatten)
  (aesRounds 14 (ks.drop 1) (xorList (blk.map (·.toNat)) (ks.getD 0 []))).map (BitVec.ofNat 8)

/-- The inverse S-box: the inverse affine map, then the inverse. -/
def invSbox (x : Nat) : Nat :=
  let r := fun n => (x * 2 ^ n + x / 2 ^ (8 - n)) % 256
  gpow8 (r 1 ^^^ r 3 ^^^ r 6 ^^^ 0x05) 254

/-- The inverse of MixColumns of one column. -/
def unmixColumn (c : List Nat) : List Nat :=
  (List.range 4).map (fun i => gmul8 8 (c.getD i 0) 14 ^^^ gmul8 8 (c.getD ((i + 1) % 4) 0) 11 ^^^ gmul8 8 (c.getD ((i + 2) % 4) 0) 13
    ^^^ gmul8 8 (c.getD ((i + 3) % 4) 0) 9)

/-- The inverse rounds after the last key addition, with the round keys from the last but one down. -/
def aesUnrounds : Nat → List (List Nat) → List Nat → List Nat
  | 0, _, st => st
  | _ + 1, [], st => st
  | f + 1, k :: ks, st =>
    let st := (List.range 16).map (fun i => invSbox (st.getD ((i + 12 * (i % 4)) % 16) 0))
    let st := xorList st k
    aesUnrounds f ks (if f = 0 then st else (chunksOf 4 4 st).flatMap unmixColumn)

/-- The inverse cipher of AES-256 on one block. PRESUMED: log entry 13. -/
def aes256Inv (key blk : List Byte) : List Byte :=
  let w := aesSchedule 52 (chunksOf 4 8 (key.map (·.toNat)))
  let ks := ((chunksOf 4 15 w).map (·.flatten)).reverse
  (aesUnrounds 14 (ks.drop 1) (xorList (blk.map (·.toNat)) (ks.getD 0 []))).map (BitVec.ofNat 8)

/-- The tweak of the next block of a data unit: the product with the primitive element of GF(2^128), as IEEE 1619 orders its bits. -/
def xtsNext (t : Nat) : Nat := if t < 2 ^ 127 then 2 * t else (2 * t - 2 ^ 128) ^^^ 0x87

/-- The blocks of a data unit under XTS, `f` the cipher or its inverse, from tweak `t` on. -/
def xtsBlocks (f : List Byte → List Byte) : Nat → List (List Byte) → List Byte
  | _, [] => []
  | t, b :: bs =>
    let add := fun (x : List Byte) => (x.zip (leBytes 16 t)).map (fun y => y.1 ^^^ y.2)
    add (f (add b)) ++ xtsBlocks f (xtsNext t) bs

/-- XTS-AES-256 (IEEE 1619) of a data unit of whole blocks under a key of 64 bytes and the data-unit number `unit`, or its inverse.
PRESUMED: log entry 52. -/
def xts (inv : Bool) (key : List Byte) (unit : Nat) (bs : List Byte) : List Byte :=
  xtsBlocks ((if inv then aes256Inv else aes256) (key.take 32)) (leNat (aes256 (key.drop 32) (leBytes 16 unit))) (chunksOf 16 bs.length bs)

/-- A product in GF(2^128) in GCM's bit order: bit 0 is the most significant; `n` bits of `x` remain. -/
def gmul128 : Nat → Nat → Nat → Nat
  | 0, _, _ => 0
  | n + 1, x, v => (if x.testBit n then v else 0) ^^^ gmul128 n x (if v % 2 = 1 then (v / 2) ^^^ (0xE1 * 2 ^ 120) else v / 2)

/-- GHASH over whole blocks. -/
def ghash (h : Nat) (bs : List Byte) : Nat := (chunksOf 16 bs.length bs).foldl (fun y b => gmul128 128 (y ^^^ beNat b) h) 0

/-- Zero bytes up to the next block. -/
def pad16 (bs : List Byte) : List Byte := bs ++ List.replicate ((16 - bs.length % 16) % 16) 0

/-- The counter mode of GCM from counter `c` on, over blocks. -/
def gctr (key iv : List Byte) : Nat → List (List Byte) → List Byte
  | _, [] => []
  | c, b :: bs => (b.zip (aes256 key (iv ++ beBytes 4 c))).map (fun x => x.1 ^^^ x.2) ++ gctr key iv (c + 1) bs

/-- GCM's keystream applied to a text with a 96-bit IV; it is its own inverse. PRESUMED: log entry 13. -/
def gcmCrypt (key iv text : List Byte) : List Byte := gctr key iv 2 (chunksOf 16 text.length text)

/-- The tag of GCM. PRESUMED: log entry 13. -/
def gcmTag (key iv aad cipher : List Byte) : List Byte :=
  let h := beNat (aes256 key (List.replicate 16 0))
  let s := ghash h (pad16 aad ++ pad16 cipher ++ beBytes 8 (8 * aad.length) ++ beBytes 8 (8 * cipher.length))
  ((beBytes 16 s).zip (aes256 key (iv ++ beBytes 4 1))).map (fun x => x.1 ^^^ x.2)

/-! ### P-256 -/

/-- The field's prime. -/
def p256P : Nat := 2 ^ 256 - 2 ^ 224 + 2 ^ 192 + 2 ^ 96 - 1
/-- The group's order. -/
def p256N : Nat := 0xFFFFFFFF00000000FFFFFFFFFFFFFFFFBCE6FAADA7179E84F3B9CAC2FC632551
/-- The curve's constant b. -/
def p256B : Nat := 0x5AC635D8AA3A93E7B3EBBD55769886BC651D06B0CC53B0F63BCE3C3E27D2604B
/-- The base point. -/
def p256G : Nat × Nat := (0x6B17D1F2E12C4247F8BCE6E563A440F277037D812DEB33A0F4A13945D898C296,
  0x4FE342E2FE1A7F9B8EE7EB4A7C0F9E162BCE33576B315ECECBB6406837BF51F5)

/-- A power modulo `m` over the low `n` bits of the exponent, from the top. -/
def powMod (m a : Nat) : Nat → Nat → Nat
  | 0, _ => 1 % m
  | n + 1, e => let r := powMod m a n (e / 2); if e % 2 = 1 then r * r % m * a % m else r * r % m

/-- The inverse modulo a prime of 256 bits. -/
def invMod (m a : Nat) : Nat := powMod m (a % m) 256 (m - 2)

/-- The sum of two points; `none` is the point at infinity. -/
def ecAdd : Option (Nat × Nat) → Option (Nat × Nat) → Option (Nat × Nat)
  | none, q => q
  | p, none => p
  | some (x1, y1), some (x2, y2) =>
    let p := p256P
    if x1 = x2 ∧ (y1 + y2) % p = 0 then none
    else
      let l := if x1 = x2 then (3 * x1 * x1 + p - 3) % p * invMod p (2 * y1) % p else (y2 + p - y1) % p * invMod p (x2 + p - x1) % p
      let x3 := (l * l + 2 * p - x1 - x2) % p
      some (x3, (l * (x1 + p - x3) + p - y1) % p)

/-- `k` times a point, over the low `n` bits of `k`, from the top. -/
def ecMul (q : Option (Nat × Nat)) : Nat → Nat → Option (Nat × Nat)
  | 0, _ => none
  | n + 1, k => let r := ecMul q n (k / 2); let d := ecAdd r r; if k % 2 = 1 then ecAdd d q else d

/-- A point as X‖Y (R360). -/
def ecBytes (q : Option (Nat × Nat)) : List Byte := match q with | some (x, y) => beBytes 32 x ++ beBytes 32 y | none => List.replicate 64 0

/-- A point read from X‖Y, if it lies on the curve. -/
def ecPoint (bs : List Byte) : Option (Nat × Nat) :=
  let x := beNat (bs.take 32)
  let y := beNat ((bs.drop 32).take 32)
  if x < p256P ∧ y < p256P ∧ y * y % p256P = (x * x * x + (p256P - 3) * x + p256B) % p256P then some (x, y) else none

/-- The public key of a scalar. -/
def ecPublic (d : Nat) : List Byte := ecBytes (ecMul (some p256G) 256 d)

/-- The x-coordinate of the ECDH product, 32 bytes. PRESUMED: log entry 13. -/
def ecdh (d : Nat) (peer : Nat × Nat) : List Byte := match ecMul (some peer) 256 d with | some (x, _) => beBytes 32 x | none => List.replicate 32 0

/-- An ECDSA signature r‖s over a SHA-256 digest, with the per-signature scalar `k`. PRESUMED: log entry 13. -/
def ecdsaSign (d k : Nat) (digest : List Byte) : List Byte :=
  let n := p256N
  let r := (match ecMul (some p256G) 256 k with | some (x, _) => x % n | none => 0)
  beBytes 32 r ++ beBytes 32 (invMod n k * (beNat digest + r * d) % n)

/-- An ECDSA signature r‖s verified over a digest under a public key X‖Y. PRESUMED: log entry 13. -/
def ecdsaVerify (key digest sig : List Byte) : Bool :=
  let n := p256N
  let r := beNat (sig.take 32)
  let s := beNat ((sig.drop 32).take 32)
  match ecPoint key with
  | none => false
  | some q =>
    let w := invMod n s
    match ecAdd (ecMul (some p256G) 256 (beNat digest * w % n)) (ecMul (some q) 256 (r * w % n)) with
    | some (x, _) => decide (0 < r) && decide (r < n) && decide (0 < s) && decide (s < n) && x % n == r
    | none => false

/-! ### Random values (R361) -/

/-- `n` bytes of the `k`-th draw of the random generator. DESIGN CHOICE: log entry 85. -/
def randomBytes (k n : Nat) : List Byte := (List.range n).map (Config.randomByte k)

/-- A scalar from 1 to the group's order − 1, from 48 bytes read as R361 reads them. -/
def scalarOf (bs : List Byte) : Nat := 1 + beNat bs % (p256N - 1)

/-- The private scalar of the DIK (R361). -/
def dikScalar : Nat := scalarOf (hkdf ((List.range 32).map Config.udsByte) (List.replicate 32 0) (ascii "EL1600 DIK v1") 48)

/-- The DIK's public key (R361). DESIGN CHOICE: log entry 86. -/
def dikPublic : List Byte := ecPublic dikScalar

end Sys2Proof.Machine
end

