-- ==== Sys2Proof/Machine/Num.lean ====
section
/-!
DEFINITION. Number formats and arithmetic (R41 to R66, R446 to R448): the format codes, exact values, rounding, the
conversions and the event flags. Every operation computes an exact value and rounds it once.
-/

namespace Sys2Proof.Machine

/-- The formats that a FMT code names (R41). -/
inductive Fmt where
  | fp32
  | bf16
  | fp16
  | e4m3
  | e5m2
  | int8
  | mxE4m3
  | mxE5m2
  | mxE2m3
  | mxE3m2
  | mxE2m1
  | splHi
  | splLo
  | e8m0
  | int32
  | reserved
  deriving DecidableEq, Repr

/-- The format of a four-bit code (R41). -/
def Fmt.ofCode (c : Nat) : Fmt :=
  match c with
  | 0 => .fp32 | 1 => .bf16 | 2 => .fp16 | 3 => .e4m3 | 4 => .e5m2 | 5 => .int8 | 6 => .mxE4m3 | 7 => .mxE5m2
  | 8 => .mxE2m3 | 9 => .mxE3m2 | 10 => .mxE2m1 | 11 => .splHi | 12 => .splLo | 13 => .e8m0 | 14 => .int32 | _ => .reserved

/-- Element bits of a format, the scale not counted (R41). -/
def Fmt.bits : Fmt → Nat
  | .fp32 | .int32 => 32
  | .bf16 | .fp16 | .splHi | .splLo => 16
  | .e4m3 | .e5m2 | .int8 | .mxE4m3 | .mxE5m2 | .e8m0 => 8
  | .mxE2m3 | .mxE3m2 => 6
  | .mxE2m1 => 4
  | .reserved => 8

/-- The MX formats, whose elements share a scale per 32 (R44). -/
def Fmt.isMx : Fmt → Bool
  | .mxE4m3 | .mxE5m2 | .mxE2m3 | .mxE3m2 | .mxE2m1 => true
  | _ => false

/-- The layout of a floating-point element (R42): exponent bits, mantissa bits, bias, whether it has infinities, and
whether it has NaNs. E4M3 has NaN and no infinity. -/
structure FLayout where
  eb : Nat
  mb : Nat
  bias : Nat
  hasInf : Bool
  hasNan : Bool
  deriving DecidableEq, Repr

/-- The layout of a floating-point format, where it is one (R42). -/
def Fmt.layout : Fmt → Option FLayout
  | .fp32 => some ⟨8, 23, 127, true, true⟩
  | .bf16 | .splHi => some ⟨8, 7, 127, true, true⟩
  | .fp16 => some ⟨5, 10, 15, true, true⟩
  | .e4m3 | .mxE4m3 => some ⟨4, 3, 7, false, true⟩
  | .e5m2 | .mxE5m2 => some ⟨5, 2, 15, true, true⟩
  | .mxE2m3 => some ⟨2, 3, 1, false, false⟩
  | .mxE3m2 => some ⟨3, 2, 3, false, false⟩
  | .mxE2m1 => some ⟨2, 1, 1, false, false⟩
  | _ => none

/-- The binary32 layout. -/
def lay32 : FLayout := ⟨8, 23, 127, true, true⟩
/-- The bfloat16 layout. -/
def lay16b : FLayout := ⟨8, 7, 127, true, true⟩
/-- The binary16 layout. -/
def lay16h : FLayout := ⟨5, 10, 15, true, true⟩

/-- An exact value: NaN, a signed infinity, or (−1)^neg · m · 2^e; zero keeps its sign. -/
inductive Num where
  | nan
  | inf (neg : Bool)
  | fin (neg : Bool) (m : Nat) (e : Int)
  deriving DecidableEq, Repr

/-- Positive zero. -/
def Num.zero : Num := .fin false 0 0

/-- The exact value is an infinity or a NaN. -/
def Num.nonFinite : Num → Bool
  | .fin _ _ _ => false
  | _ => true

/-- The value of an element in a floating-point layout (R42). -/
def decodeFloat (l : FLayout) (w : Nat) : Num :=
  let s := fld w (l.eb + l.mb) 1 == 1
  let x := fld w l.mb l.eb
  let m := fld w 0 l.mb
  if x = 2 ^ l.eb - 1 && l.hasInf then (if m = 0 then .inf s else .nan)
  else if x = 2 ^ l.eb - 1 && m = 2 ^ l.mb - 1 && l.hasNan && !l.hasInf then .nan
  else if x = 0 then .fin s m (1 - (l.bias : Int) - l.mb)
  else .fin s (m + 2 ^ l.mb) ((x : Int) - l.bias - l.mb)

/-- An integer as an exact value. -/
def numOfInt (i : Int) : Num := .fin (decide (i < 0)) i.natAbs 0

/-- The value of an element of any format but the MX ones, which need their scale (R42 to R46). -/
def decodeElem (f : Fmt) (w : Nat) : Num :=
  match f with
  | .int8 => numOfInt (sext 8 w)
  | .int32 => numOfInt (sext 32 w)
  | .e8m0 => if w % 256 = 255 then .nan else .fin false 1 ((w % 256 : Nat) - 127 : Int)
  | f => match f.layout with
    | some l => decodeFloat l w
    | none => .nan

/-- Compare m · 2^e with n · 2^f. -/
def magLt (m : Nat) (e : Int) (n : Nat) (f : Int) : Bool :=
  if e ≤ f then decide (m < n * 2 ^ (f - e).toNat) else decide (m * 2 ^ (e - f).toNat < n)

/-- The largest finite magnitude of a layout, as mantissa and exponent (R42). -/
def maxFinite (l : FLayout) : Nat × Int :=
  if l.hasInf then (2 ^ (l.mb + 1) - 1, (2 ^ l.eb - 2 : Int) - l.bias - l.mb)
  else if l.hasNan then (2 ^ (l.mb + 1) - 2, (2 ^ l.eb - 1 : Int) - l.bias - l.mb)
  else (2 ^ (l.mb + 1) - 1, (2 ^ l.eb - 1 : Int) - l.bias - l.mb)

/-- The rounding modes of RND (R51). -/
inductive Rnd where
  | nearest
  | stochastic
  | towardZero
  deriving DecidableEq, Repr

/-- RND of a two-bit field; 0b11 is refused before it is used (R51). -/
def Rnd.ofCode (c : Nat) : Rnd := if c = 1 then .stochastic else if c = 2 then .towardZero else .nearest

/-- The integer to which m · 2^-s rounds: nearest-even, toward zero, or stochastically against the 16-bit value `r`
(R51, R53). -/
def roundShift (mode : Rnd) (r m s : Nat) : Nat :=
  let n := m / 2 ^ s
  let rem := m % 2 ^ s
  match mode with
  | .towardZero => n
  | .nearest => if 2 * rem > 2 ^ s || (2 * rem == 2 ^ s && n % 2 == 1 && s != 0) then n + 1 else n
  | .stochastic => if r < rem * 65536 / 2 ^ s then n + 1 else n

/-- A finite magnitude rounded to a layout with an unbounded exponent range (R53, R57): the result is n · 2^q.
DEDUCED: log entry 17. -/
def roundMag (l : FLayout) (mode : Rnd) (r m : Nat) (e : Int) : Nat × Int :=
  if m = 0 then (0, e)
  else
    let top : Int := (log2 m : Int) + e
    let low : Int := 1 - (l.bias : Int)
    let q := (if top < low then low else top) - l.mb
    if q ≤ e then (m * 2 ^ (e - q).toNat, q) else (roundShift mode r m (q - e).toNat, q)

/-- The word of a magnitude n · 2^q that lies in the layout's finite range; `q` is the spacing at the value.
DEDUCED: log entry 17. -/
def encodeMag (l : FLayout) (neg : Bool) (n : Nat) (q : Int) : Nat :=
  let sgn := if neg then 2 ^ (l.eb + l.mb) else 0
  if n < 2 ^ l.mb then sgn + n
  else
    let n' := if n = 2 ^ (l.mb + 1) then 2 ^ l.mb else n
    let x := q + l.mb + l.bias + (if n = 2 ^ (l.mb + 1) then 1 else 0)
    sgn + x.toNat * 2 ^ l.mb + (n' - 2 ^ l.mb)

/-- The canonical NaN of a layout (R48). -/
def canonNan (l : FLayout) : Nat := if l.hasInf then (2 ^ l.eb - 1) * 2 ^ l.mb + 2 ^ (l.mb - 1) else 2 ^ (l.eb + l.mb) - 1

/-- An infinity of a layout that has one. -/
def encodeInf (l : FLayout) (neg : Bool) : Nat := (if neg then 2 ^ (l.eb + l.mb) else 0) + (2 ^ l.eb - 1) * 2 ^ l.mb

/-- The largest finite value of a sign. -/
def encodeMax (l : FLayout) (neg : Bool) : Nat :=
  (if neg then 2 ^ (l.eb + l.mb) else 0) + (if l.hasInf then (2 ^ l.eb - 1) * 2 ^ l.mb - 1 else if l.hasNan then 2 ^ (l.eb + l.mb) - 2 else 2 ^ (l.eb + l.mb) - 1)

/-- The arithmetic event flags of one operation (R61). -/
structure AFlags where
  nf : Bool
  ov : Bool
  clip : Bool
  deriving DecidableEq, Repr

/-- No event. -/
def AFlags.none : AFlags := ⟨false, false, false⟩

/-- Flags of several events are ORed (R62). -/
def AFlags.or (a b : AFlags) : AFlags := ⟨a.nf || b.nf, a.ov || b.ov, a.clip || b.clip⟩

/-- The flags as VEC_AFLAGS holds them: NF bit 0, OV bit 1, CLIP bit 2 (R158). -/
def AFlags.mask (a : AFlags) : Nat := a.nf.toNat + 2 * a.ov.toNat + 4 * a.clip.toNat

/-- A floating-point result or conversion: rounded once to the layout, with the overflow rules of R57 and the flags of R61
and R62. `wide` marks the targets FP32, BF16 and FP16, which set OV where narrower ones set CLIP. DEDUCED: log entry 17. -/
def toFloat (l : FLayout) (wide : Bool) (mode : Rnd) (sat : Bool) (r : Nat) (v : Num) : Nat × AFlags :=
  match v with
  | .nan => (canonNan l, ⟨true, false, false⟩)
  | .inf s =>
    if sat then (encodeMax l s, ⟨true, wide, !wide⟩)
    else ((if l.hasInf then encodeInf l s else canonNan l), ⟨true, false, false⟩)
  | .fin s m e =>
    let mx := maxFinite l
    let nq := roundMag l mode r m e
    if mode = .towardZero then
      if magLt mx.1 mx.2 m e then (encodeMax l s, ⟨false, wide, !wide⟩) else (encodeMag l s nq.1 nq.2, .none)
    else if magLt mx.1 mx.2 nq.1 nq.2 then
      if sat then (encodeMax l s, ⟨false, wide, !wide⟩)
      else if l.hasInf then (encodeInf l s, ⟨true, wide, false⟩)
      else (canonNan l, ⟨true, false, false⟩)
    else (encodeMag l s nq.1 nq.2, .none)

/-- A conversion to an integer of `len` bits (R57, R62). -/
def toInt (len : Nat) (mode : Rnd) (r : Nat) (v : Num) : Nat × AFlags :=
  match v with
  | .nan => (0, ⟨true, false, false⟩)
  | .inf s => ((if s then 2 ^ (len - 1) else 2 ^ (len - 1) - 1), ⟨true, false, true⟩)
  | .fin s m e =>
    let n := if 0 ≤ e then m * 2 ^ e.toNat else roundShift mode r m (-e).toNat
    let lim := if s then 2 ^ (len - 1) else 2 ^ (len - 1) - 1
    let ovf := if mode = .towardZero then magLt lim 0 m e else decide (lim < n)
    if ovf then ((if s then 2 ^ (len - 1) else lim), ⟨false, false, true⟩)
    else (if s then (2 ^ len - n) % 2 ^ len else n, .none)

/-- A conversion to an E8M0 byte (R446). -/
def toE8m0 (mode : Rnd) (sat : Bool) (r : Nat) (v : Num) : Nat × AFlags :=
  match v with
  | .nan => (255, ⟨true, false, false⟩)
  | .inf _ => if sat then (254, ⟨true, false, true⟩) else (255, ⟨true, false, false⟩)
  | .fin _ m e =>
    if m = 0 then (0, ⟨false, false, true⟩)
    else
      let k : Int := (log2 m : Int) + e
      let rem := m - 2 ^ log2 m
      let up : Bool := match mode with
        | .towardZero => false
        | .nearest => decide (2 * rem > 2 ^ log2 m) || (decide (2 * rem = 2 ^ log2 m) && decide ((k + 127) % 2 = 1))
        | .stochastic => decide (r < rem * 65536 / 2 ^ log2 m)
      let x := k + (if up then 1 else 0) + 127
      if x < 0 then (0, ⟨false, false, true⟩)
      else if 254 < x then (if sat then (254, ⟨false, false, true⟩) else (255, ⟨true, false, false⟩))
      else (x.toNat, .none)

/-- One element converted to any format but an MX one (R56, R57, R446). -/
def convertElem (f : Fmt) (mode : Rnd) (sat : Bool) (r : Nat) (v : Num) : Nat × AFlags :=
  match f with
  | .int8 => toInt 8 mode r v
  | .int32 => toInt 32 mode r v
  | .e8m0 => toE8m0 mode sat r v
  | .fp32 => toFloat lay32 true mode sat r v
  | .bf16 | .splHi => toFloat lay16b true mode sat r v
  | .fp16 => toFloat lay16h true mode sat r v
  | f => match f.layout with
    | some l => toFloat l false mode sat r v
    | none => (0, .none)

/-- The exact value of an MX element times its scale (R44): scale 0xFF makes every element NaN. -/
def mxExact (f : Fmt) (scale w : Nat) : Num :=
  if scale % 256 = 255 then .nan
  else match f.layout with
    | none => .nan
    | some l => match decodeFloat l w with
      | .fin s m e => .fin s m (e + ((scale % 256 : Nat) - 127 : Int))
      | v => v

/-- The value that a conversion takes of an MX element under its scale (R56): a value beyond the FP32 range is infinite. -/
def decodeMx (f : Fmt) (scale w : Nat) : Num :=
  match mxExact f scale w with
  | .fin s m e => if magLt (maxFinite lay32).1 (maxFinite lay32).2 m e then .inf s else .fin s m e
  | v => v

/-- The exponent of an element format's largest normal value (R58). -/
def mxEmax : Fmt → Int
  | .mxE4m3 => 8
  | .mxE5m2 => 15
  | .mxE3m2 => 4
  | _ => 2

/-- Is there a NaN in the list. -/
def anyNan (vs : List Num) : Bool := vs.any (· == .nan)

/-- The larger of two finite magnitudes, as (m, e). -/
def maxMag (a b : Nat × Int) : Nat × Int := if magLt a.1 a.2 b.1 b.2 then b else a

/-- The conversion of a block of 32 values to an MX format (R58): the scale byte, the elements and the flags; `rs` are the
random values of the elements. -/
def toMxBlock (f : Fmt) (mode : Rnd) (rs : List Nat) (vs : List Num) : Nat × List Nat × AFlags :=
  if anyNan vs then (255, vs.map (fun _ => 0), ⟨true, false, false⟩)
  else
    let a := vs.foldl (fun a v => match v with | .fin _ m e => maxMag a (m, e) | _ => a) (0, 0)
    let hasInf := vs.any (fun v => match v with | .inf _ => true | _ => false)
    if a.1 = 0 && !hasInf then (0x7F, vs.map (fun _ => 0), .none)
    else
      let t0 : Int := if a.1 = 0 then 127 else (log2 a.1 : Int) + a.2 - mxEmax f
      let t := if t0 < -127 then -127 else if 127 < t0 then 127 else t0
      let el := (vs.zip rs).map (fun vr => match vr.1 with
        | .fin s m e => match f.layout with
          | some l =>
            let c := toFloat l false mode true vr.2 (.fin s m (e - t))
            -- clipping in the band from Max to 2^(emax + 1) sets no flag; a beyond-band value cannot occur unless t is clamped
            let inBand := magLt m (e - t) 1 (mxEmax f + 1)
            (c.1, if inBand then AFlags.none else c.2)
          | none => (0, AFlags.none)
        | .inf s => match f.layout with
          | some l => (encodeMax l s, ⟨true, false, true⟩)
          | none => (0, AFlags.none)
        | .nan => (0, ⟨true, false, false⟩))
      ((t + 127).toNat, el.map (·.1), el.foldl (fun g e => g.or e.2) .none)

/-- Exact negation. -/
def Num.neg : Num → Num
  | .nan => .nan
  | .inf s => .inf (!s)
  | .fin s m e => .fin (!s) m e

/-- Exact magnitude. -/
def Num.abs : Num → Num
  | .nan => .nan
  | .inf _ => .inf false
  | .fin _ m e => .fin false m e

/-- Exact sum (R48, R50): the sum of zeros of unlike sign, and a cancellation, give +0. -/
def Num.add (a b : Num) : Num :=
  match a, b with
  | .nan, _ => .nan
  | _, .nan => .nan
  | .inf s, .inf t => if s = t then .inf s else .nan
  | .inf s, _ => .inf s
  | _, .inf t => .inf t
  | .fin s m e, .fin t n f =>
    if m = 0 && n = 0 then .fin (s && t) 0 (min e f)
    else
      let g := min e f
      let x : Int := (if s then -1 else 1) * ((m * 2 ^ (e - g).toNat : Nat) : Int)
      let y : Int := (if t then -1 else 1) * ((n * 2 ^ (f - g).toNat : Nat) : Int)
      .fin (decide (x + y < 0)) (x + y).natAbs g

/-- Exact product (R48). -/
def Num.mul (a b : Num) : Num :=
  match a, b with
  | .nan, _ => .nan
  | _, .nan => .nan
  | .inf s, .inf t => .inf (s != t)
  | .inf s, .fin t n _ => if n = 0 then .nan else .inf (s != t)
  | .fin s m _, .inf t => if m = 0 then .nan else .inf (s != t)
  | .fin s m e, .fin t n f => .fin (s != t) (m * n) (e + f)

/-- A quotient to 64 bits with a sticky last bit, enough to round once to any format (R48). -/
def Num.div (a b : Num) : Num :=
  match a, b with
  | .nan, _ => .nan
  | _, .nan => .nan
  | .inf _, .inf _ => .nan
  | .inf s, .fin t _ _ => .inf (s != t)
  | .fin s _ _, .inf t => .fin (s != t) 0 0
  | .fin s m e, .fin t n f =>
    if n = 0 then (if m = 0 then .nan else .inf (s != t))
    else if m = 0 then .fin (s != t) 0 0
    else
      let k := 64 + log2 n
      let q := m * 2 ^ k / n
      let rem := m * 2 ^ k % n
      .fin (s != t) (2 * q + (if rem = 0 then 0 else 1)) (e - f - (k : Nat) - 1)

/-- Digits of the integer square root, from bit `fuel` down. -/
def isqrtAux (n : Nat) : Nat → Nat → Nat
  | 0, r => r
  | b + 1, r => let c := r + 2 ^ b; isqrtAux n b (if c * c ≤ n then c else r)

/-- The integer square root of n, by as many digits as n needs. -/
def isqrt (n : Nat) : Nat := isqrtAux n (log2 n / 2 + 1) 0

/-- A square root with a sticky last bit (R48). -/
def Num.sqrt : Num → Num
  | .nan => .nan
  | .inf s => if s then .nan else .inf false
  | .fin s m e =>
    if m = 0 then .fin s 0 0
    else if s then .nan
    else
      let odd := e % 2 != 0
      let m' := (if odd then 2 * m else m) * 2 ^ 200
      let e' := (if odd then e - 1 else e) - 200
      let q := isqrt m'
      .fin false (2 * q + (if q * q = m' then 0 else 1)) (e' / 2 - 1)

/-- Less-than on exact values, neither a NaN; zeros are equal (R72). -/
def Num.lt (a b : Num) : Bool :=
  match a, b with
  | .nan, _ => false
  | _, .nan => false
  | .inf s, .inf t => s && !t
  | .inf s, .fin _ _ _ => s
  | .fin _ _ _, .inf t => !t
  | .fin s m e, .fin t n f =>
    if m = 0 && n = 0 then false
    else if m = 0 then !t
    else if n = 0 then s
    else if s && !t then true
    else if !s && t then false
    else if s then magLt n f m e else magLt m e n f

/-- Equality on exact values, neither a NaN; zeros are equal (R72). -/
def Num.eqv (a b : Num) : Bool := a != .nan && b != .nan && !Num.lt a b && !Num.lt b a

/-- Exact value of an FP32 word. -/
def of32 (w : Word) : Num := decodeFloat lay32 w.toNat

/-- An FP32 result, nearest-even, without saturation (R51), with its flags. -/
def to32 (v : Num) : Word × AFlags := let r := toFloat lay32 true .nearest false 0 v; (w32 r.1, r.2)

/-- The canonical FP32 NaN (R48). -/
def nan32 : Word := 0x7FC00000

/-- The flags of an operation whose operands are `ops` and whose result carries `r` (R61): NF when any operand or the result
is not finite, OV only from finite operands. -/
def opFlags (ops : List Num) (r : AFlags) : AFlags :=
  if ops.any Num.nonFinite then ⟨true, false, r.clip⟩ else r

/-- An FP32 accumulation in a Slab or the Chute (R49, R50, R64): one addition, nearest-even, a subnormal sum flushed to
zero of its sign. -/
def accAdd (acc : Word) (p : Num) : Word × AFlags :=
  let a := of32 acc
  let r := to32 (Num.add a p)
  let w := if wfld r.1 23 8 = 0 then r.1 &&& 0x80000000 else r.1
  (w, opFlags [a, p] r.2)

/-- An MX product in a Slab (R49, R124): exact, and a magnitude below 2^-126 is flushed. DEDUCED: log entry 108. -/
def mxProduct (a b : Num) : Num :=
  match Num.mul a b with
  | .fin s m e => if magLt m e 1 (-126) then .fin s 0 0 else .fin s m e
  | v => v

/-- The Galois step of the rounding register (R54). -/
def lfsrStep (s : BitVec 64) : BitVec 64 :=
  if s.getLsbD 0 then (s >>> 1) ^^^ 0xD800000000000000#64 else s >>> 1

/-- `n` steps of the rounding register. -/
def lfsrSteps : Nat → BitVec 64 → BitVec 64
  | 0, s => s
  | n + 1, s => lfsrSteps n (lfsrStep s)

/-- The 16-bit random value of element `i` of an instruction whose register state is `s` (R54). -/
def randomOf (s : BitVec 64) (i : Nat) : Nat :=
  let z := s ^^^ BitVec.ofNat 64 i
  let z := z ^^^ (z >>> 31)
  let z := z * 0x9A3C5E71D4B286F5#64
  let z := z ^^^ (z >>> 29)
  (z >>> 48).toNat

/-- The reciprocal and reciprocal square root estimates (R447): a power of two exactly; otherwise one of the two FP32 values
that enclose the exact result, which of them being the free function that the argument `up` stands for.
DESIGN CHOICE: log entry 19. -/
def estimate (exact : Num) (up : Bool) : Word × AFlags :=
  match exact with
  | .fin s m e =>
    if m = 0 then (w32 (encodeMag lay32 s 0 0), .none)
    else if magLt (maxFinite lay32).1 (maxFinite lay32).2 m e then (w32 (encodeInf lay32 s), ⟨true, true, false⟩)
    else
      let nq := roundMag lay32 .towardZero 0 m e
      let isExact := !(magLt nq.1 nq.2 m e)
      let n' := if isExact || !up then nq.1 else nq.1 + 1
      if magLt (maxFinite lay32).1 (maxFinite lay32).2 n' nq.2 then (w32 (encodeMag lay32 s nq.1 nq.2), .none)
      else (w32 (encodeMag lay32 s n' nq.2), .none)
  | v => to32 v

/-- VF32 RCP (R447). DESIGN CHOICE: log entry 19. -/
def rcp32 (w : Word) : Word × AFlags :=
  match of32 w with
  | .nan => (nan32, ⟨true, false, false⟩)
  | .inf s => (w32 (encodeMag lay32 s 0 0), ⟨true, false, false⟩)
  | .fin s m e =>
    if m = 0 then (w32 (encodeInf lay32 s), ⟨true, false, false⟩)
    else estimate (Num.div (.fin false 1 0) (.fin s m e)) (Config.rcpChoice w)

/-- VF32 RSQ (R447). DESIGN CHOICE: log entry 19. -/
def rsq32 (w : Word) : Word × AFlags :=
  match of32 w with
  | .nan => (nan32, ⟨true, false, false⟩)
  | .inf s => if s then (nan32, ⟨true, false, false⟩) else (0, ⟨true, false, false⟩)
  | .fin s m e =>
    if m = 0 then (w32 (encodeInf lay32 s), ⟨true, false, false⟩)
    else if s then (nan32, ⟨true, false, false⟩)
    else estimate (Num.div (.fin false 1 0) (Num.sqrt (.fin false m e))) (Config.rsqChoice w)

/-- The formats that a Slab or the Chute multiplies, paired by class (R63): multiply-accumulates per cell and cycle, or none
where the pair is refused. -/
def pairRate (a b : Fmt) : Option Nat :=
  let fp8 := fun f => f == Fmt.e4m3 || f == .e5m2
  let mx86 := fun f => f == Fmt.mxE4m3 || f == .mxE5m2 || f == .mxE2m3 || f == .mxE3m2
  if a = .bf16 && b = .bf16 || a = .fp16 && b = .fp16 then some 1
  else if fp8 a && fp8 b then some 2
  else if a = .int8 && b = .int8 then some 2
  else if a = .mxE2m1 && b = .mxE2m1 then some 4
  else if (mx86 a && b.isMx) || (mx86 b && a.isMx) then some 2
  else none

end Sys2Proof.Machine
end

