-- ==== Sys2Proof/Machine/Regs.lean ====
section
/-!
DEFINITION. The register pages (R16 to R24) and the registers of every page, from the register tables of the manual: for
each register its offset, how many follow at which stride, the masks of its access codes (R8) and its reset value (R9).
Bits in no mask are reserved (R7). Fields whose Reset column reads "fuse" are filled from the fuses by `loadFuses`.
-/

namespace Sys2Proof.Machine

/-- The kinds of register page: one for each page table of the manual. -/
inductive PageKind where
  | fcc
  | ben
  | slb
  | chu
  | vec
  | wev
  | siv
  | hlr
  | xlt
  | gal
  | hbm
  | stk
  | stkCtl
  | lnk
  | cru
  | mlt
  | spc
  | wbgGlobal
  | wbgPcie
  | wbgDrain
  | cmdEngine
  | ring
  | cmb
  | carGlobal
  | carLog
  | carId
  | carKeyx
  | carCtx
  | carExport
  | fusStat
  | fusLog
  | wbgBoot
  | smb
  | safGlobal
  | cpv
  | safMailbox
  | safDomain
  | safCurrent
  | safThermal
  | safWatchdog
  | safClock
  | safReset
  | safLog
  | msix
  | pba
  deriving DecidableEq, Repr

/-- One register, or a run of `cnt` registers at a stride: masks of its RW, W1C, WO, RC and RO bits, and its reset. -/
structure RegDesc where
  off : Nat
  cnt : Nat
  stride : Nat
  rw : Nat
  w1c : Nat
  wo : Nat
  rc : Nat
  ro : Nat
  reset : Nat
  deriving DecidableEq, Repr

/-- The register has an address `o` of the page. -/
def RegDesc.covers (r : RegDesc) (o : Nat) : Bool := r.off ≤ o && o < r.off + r.cnt * r.stride && (o - r.off) % r.stride == 0

/-- Offset of FCC_BOOT (R96). -/
abbrev Off.fccBoot : Nat := 0x040
/-- Offset of FCC_RESUME (R96). -/
abbrev Off.fccResume : Nat := 0x800
/-- Offset of FCC_RPC (R96). -/
abbrev Off.fccRpc : Nat := 0x804
/-- Offset of FCC_PSTAT (R96). -/
abbrev Off.fccPstat : Nat := 0x808
/-- Offset of FCC_EXC (R96). -/
abbrev Off.fccExc : Nat := 0x80C
/-- Offset of FCC_EXC_PC (R96). -/
abbrev Off.fccExcPc : Nat := 0x810
/-- Offset of FCC_EXC_VAL (R96). -/
abbrev Off.fccExcVal : Nat := 0x814
/-- Offset of FCC_EXC_CLR (R96). -/
abbrev Off.fccExcClr : Nat := 0x818
/-- Offset of FCC_IREF_ADDR (R96). -/
abbrev Off.fccIrefAddr : Nat := 0x81C
/-- Offset of FCC_IREF_CNT (R96). -/
abbrev Off.fccIrefCnt : Nat := 0x820
/-- Offset of FCC_QDISC (R96). -/
abbrev Off.fccQdisc : Nat := 0x824
/-- Offset of FCC_QOCC (R96). -/
abbrev Off.fccQocc : Nat := 0x828
/-- Offset of BEN_DEPWD (R115). -/
abbrev Off.benDepwd : Nat := 0x0C0
/-- Offset of BEN_DEP_STALL (R115). -/
abbrev Off.benDepStall : Nat := 0xC00
/-- Offset of BEN_DEP_SAT (R115). -/
abbrev Off.benDepSat : Nat := 0xC04
/-- Offset of BEN_RSIG_LOG (R115). -/
abbrev Off.benRsigLog : Nat := 0xC08
/-- Offset of BEN_RSIG_WORD (R115). -/
abbrev Off.benRsigWord : Nat := 0xC0C
/-- Offset of BEN_RSIG_CNT (R115). -/
abbrev Off.benRsigCnt : Nat := 0xC10
/-- Offset of BEN_DEP_WAIT0 (R115). -/
abbrev Off.benDepWait : Nat := 0xC20
/-- Offset of SLB_VBYP0 (R136). -/
abbrev Off.slbVbyp0 : Nat := 0x040
/-- Offset of SLB_VBYP1 (R136). -/
abbrev Off.slbVbyp1 : Nat := 0x044
/-- Offset of SLB_CFG (R136). -/
abbrev Off.slbCfg : Nat := 0x048
/-- Offset of SLB_GEOM (R136). -/
abbrev Off.slbGeom : Nat := 0x800
/-- Offset of SLB_FBYP0 (R136). -/
abbrev Off.slbFbyp0 : Nat := 0x804
/-- Offset of SLB_FBYP1 (R136). -/
abbrev Off.slbFbyp1 : Nat := 0x808
/-- Offset of SLB_STRM (R136). -/
abbrev Off.slbStrm : Nat := 0x80C
/-- Offset of SLB_PAR (R136). -/
abbrev Off.slbPar : Nat := 0x810
/-- Offset of SLB_PARCNT (R136). -/
abbrev Off.slbParcnt : Nat := 0x814
/-- Offset of SLB_TEST (R136). -/
abbrev Off.slbTest : Nat := 0x818
/-- Offset of SLB_TFAIL0 (R136). -/
abbrev Off.slbTfail0 : Nat := 0x81C
/-- Offset of SLB_TFAIL1 (R136). -/
abbrev Off.slbTfail1 : Nat := 0x820
/-- Offset of CHU_CFG (R159). -/
abbrev Off.chuCfg : Nat := 0x040
/-- Offset of CHU_OPS (R159). -/
abbrev Off.chuOps : Nat := 0x800
/-- Offset of CHU_BUSY (R159). -/
abbrev Off.chuBusy : Nat := 0x804
/-- Offset of CHU_LOST (R159). -/
abbrev Off.chuLost : Nat := 0x808
/-- Offset of VEC_CFG (R160). -/
abbrev Off.vecCfg : Nat := 0x040
/-- Offset of VEC_ORING (R160). -/
abbrev Off.vecOring : Nat := 0x044
/-- Offset of VEC_OFMT (R160). -/
abbrev Off.vecOfmt : Nat := 0x048
/-- Offset of VEC_OSIG (R160). -/
abbrev Off.vecOsig : Nat := 0x04C
/-- Offset of VEC_SRING (R160). -/
abbrev Off.vecSring : Nat := 0x050
/-- Offset of VEC_SFMT (R160). -/
abbrev Off.vecSfmt : Nat := 0x054
/-- Offset of VEC_SSIG (R160). -/
abbrev Off.vecSsig : Nat := 0x058
/-- Offset of VEC_AFLAGS (R160). -/
abbrev Off.vecAflags : Nat := 0x800
/-- Offset of VEC_SEED_LO (R160). -/
abbrev Off.vecSeedLo : Nat := 0x804
/-- Offset of VEC_SEED_HI (R160). -/
abbrev Off.vecSeedHi : Nat := 0x808
/-- Offset of VEC_SEED_LD (R160). -/
abbrev Off.vecSeedLd : Nat := 0x80C
/-- Offset of VEC_LFSR_LO (R160). -/
abbrev Off.vecLfsrLo : Nat := 0x810
/-- Offset of VEC_LFSR_HI (R160). -/
abbrev Off.vecLfsrHi : Nat := 0x814
/-- Offset of VEC_TQ (R160). -/
abbrev Off.vecTq : Nat := 0x818
/-- Offset of VEC_OPOS (R160). -/
abbrev Off.vecOpos : Nat := 0x81C
/-- Offset of VEC_SIGDROP (R160). -/
abbrev Off.vecSigdrop : Nat := 0x820
/-- Offset of WEV_CFG (R184, R199). -/
abbrev Off.wevCfg : Nat := 0x040
/-- Offset of WEV_OPS (R184, R199). -/
abbrev Off.wevOps : Nat := 0x800
/-- Offset of WEV_BUSY (R184, R199). -/
abbrev Off.wevBusy : Nat := 0x804
/-- Offset of WEV_SPLIT (R184, R199). -/
abbrev Off.wevSplit : Nat := 0x808
/-- Offset of WEV_LOST (R184, R199). -/
abbrev Off.wevLost : Nat := 0x80C
/-- Offset of WEV_LAST (R184, R199). -/
abbrev Off.wevLast : Nat := 0x810
/-- Offset of WEV_FAULT (R184, R199). -/
abbrev Off.wevFault : Nat := 0x814
/-- Offset of WEV_FAULT_IDX (R184, R199). -/
abbrev Off.wevFaultIdx : Nat := 0x818
/-- Offset of WEV_FAULT_VAL (R184, R199). -/
abbrev Off.wevFaultVal : Nat := 0x81C
/-- Offset of WEV_RT_GEOM (R184, R199). -/
abbrev Off.wevRtGeom : Nat := 0x080
/-- Offset of WEV_RT_CAP (R184, R199). -/
abbrev Off.wevRtCap : Nat := 0x084
/-- Offset of WEV_RT_SEEDT (R184, R199). -/
abbrev Off.wevRtSeedt : Nat := 0x088
/-- Offset of WEV_RT_SCORE (R184, R199). -/
abbrev Off.wevRtScore : Nat := 0x08C
/-- Offset of WEV_RT_MIDX (R184, R199). -/
abbrev Off.wevRtMidx : Nat := 0x090
/-- Offset of WEV_RT_MWGT (R184, R199). -/
abbrev Off.wevRtMwgt : Nat := 0x094
/-- Offset of WEV_RT_DROP (R184, R199). -/
abbrev Off.wevRtDrop : Nat := 0x098
/-- Offset of WEV_RT_CNT (R184, R199). -/
abbrev Off.wevRtCnt : Nat := 0x09C
/-- Offset of WEV_RT_BAL (R184, R199). -/
abbrev Off.wevRtBal : Nat := 0x0A0
/-- Offset of WEV_DROP_CNT (R184, R199). -/
abbrev Off.wevDropCnt : Nat := 0x900
/-- Offset of WEV_OVF_CNT (R184, R199). -/
abbrev Off.wevOvfCnt : Nat := 0x904
/-- Offset of WEV_RT_PROBES (R184, R199). -/
abbrev Off.wevRtProbes : Nat := 0x908
/-- Offset of WEV_RT_FULL0 (R184, R199). -/
abbrev Off.wevRtFull0 : Nat := 0x90C
/-- Offset of WEV_RT_FULL1 (R184, R199). -/
abbrev Off.wevRtFull1 : Nat := 0x910
/-- Offset of WEV_RT_TDROP (R184, R199). -/
abbrev Off.wevRtTdrop : Nat := 0x914
/-- Offset of SIV_CFG (R185). -/
abbrev Off.sivCfg : Nat := 0x040
/-- Offset of SIV_VHDR (R185). -/
abbrev Off.sivVhdr : Nat := 0x044
/-- Offset of SIV_VSIG (R185). -/
abbrev Off.sivVsig : Nat := 0x048
/-- Offset of SIV_TENS (R185). -/
abbrev Off.sivTens : Nat := 0x800
/-- Offset of SIV_DENSE (R185). -/
abbrev Off.sivDense : Nat := 0x804
/-- Offset of SIV_BLKIN (R185). -/
abbrev Off.sivBlkin : Nat := 0x808
/-- Offset of SIV_BLKOUT (R185). -/
abbrev Off.sivBlkout : Nat := 0x80C
/-- Offset of SIV_FAULT (R185). -/
abbrev Off.sivFault : Nat := 0x810
/-- Offset of SIV_FAULT_HDR (R185). -/
abbrev Off.sivFaultHdr : Nat := 0x814
/-- Offset of HLR_CFG (R222). -/
abbrev Off.hlrCfg : Nat := 0x040
/-- Offset of HLR_SLOTn (R222). -/
abbrev Off.hlrSlot : Nat := 0x100
/-- Offset of HLR_KICK (R222). -/
abbrev Off.hlrKick : Nat := 0x800
/-- Offset of HLR_KDONE (R222). -/
abbrev Off.hlrKdone : Nat := 0x804
/-- Offset of HLR_OPS (R222). -/
abbrev Off.hlrOps : Nat := 0x808
/-- Offset of HLR_BYTES (R222). -/
abbrev Off.hlrBytes : Nat := 0x80C
/-- Offset of HLR_ACC (R222). -/
abbrev Off.hlrAcc : Nat := 0x810
/-- Offset of HLR_FAULT (R222). -/
abbrev Off.hlrFault : Nat := 0x814
/-- Offset of HLR_FAULT_ADDR_LO (R222). -/
abbrev Off.hlrFaultAddrLo : Nat := 0x818
/-- Offset of HLR_FAULT_ADDR_HI (R222). -/
abbrev Off.hlrFaultAddrHi : Nat := 0x81C
/-- Offset of HLR_FAULT_ELEM (R222). -/
abbrev Off.hlrFaultElem : Nat := 0x820
/-- Offset of XLT_ROOT (R223). -/
abbrev Off.xltRoot : Nat := 0x040
/-- Offset of XLT_LIM (R223). -/
abbrev Off.xltLim : Nat := 0x044
/-- Offset of XLT_INV (R223). -/
abbrev Off.xltInv : Nat := 0x800
/-- Offset of XLT_FAULT (R223). -/
abbrev Off.xltFault : Nat := 0x804
/-- Offset of XLT_FAULT_VA_LO (R223). -/
abbrev Off.xltFaultVaLo : Nat := 0x808
/-- Offset of XLT_FAULT_VA_HI (R223). -/
abbrev Off.xltFaultVaHi : Nat := 0x80C
/-- Offset of XLT_MISS (R223). -/
abbrev Off.xltMiss : Nat := 0x810
/-- Offset of XLT_WALK (R223). -/
abbrev Off.xltWalk : Nat := 0x814
/-- Offset of GAL_WAYS (R253). -/
abbrev Off.galWays : Nat := 0x040
/-- Offset of GAL_PF (R253). -/
abbrev Off.galPf : Nat := 0x044
/-- Offset of GAL_RTMIN (R253). -/
abbrev Off.galRtmin : Nat := 0x048
/-- Offset of GAL_BANKCAP (R253). -/
abbrev Off.galBankcap : Nat := 0x04C
/-- Offset of GAL_EPOCH (R253). -/
abbrev Off.galEpoch : Nat := 0x800
/-- Offset of GAL_FLUSH (R253). -/
abbrev Off.galFlush : Nat := 0x804
/-- Offset of GAL_HOT (R253). -/
abbrev Off.galHot : Nat := 0x808
/-- Offset of GAL_HOTCNT (R253). -/
abbrev Off.galHotcnt : Nat := 0x80C
/-- Offset of GAL_RTOCC (R253). -/
abbrev Off.galRtocc : Nat := 0x810
/-- Offset of GAL_RTPEAK (R253). -/
abbrev Off.galRtpeak : Nat := 0x814
/-- Offset of GAL_HIT (R253). -/
abbrev Off.galHit : Nat := 0x818
/-- Offset of GAL_MISS (R253). -/
abbrev Off.galMiss : Nat := 0x81C
/-- Offset of GAL_PFDROP (R253). -/
abbrev Off.galPfdrop : Nat := 0x820
/-- Offset of GAL_ATOM (R253). -/
abbrev Off.galAtom : Nat := 0x824
/-- Offset of GAL_SPECL (R253). -/
abbrev Off.galSpecl : Nat := 0x828
/-- Offset of GAL_FAULT (R253). -/
abbrev Off.galFault : Nat := 0x82C
/-- Offset of HBM_CFG (R254). -/
abbrev Off.hbmCfg : Nat := 0x040
/-- Offset of HBM_TOUT (R254). -/
abbrev Off.hbmTout : Nat := 0x044
/-- Offset of HBM_TRAIN (R254). -/
abbrev Off.hbmTrain : Nat := 0x800
/-- Offset of HBM_TRES (R254). -/
abbrev Off.hbmTres : Nat := 0x804
/-- Offset of HBM_CECC (R254). -/
abbrev Off.hbmCecc : Nat := 0x808
/-- Offset of HBM_UECC (R254). -/
abbrev Off.hbmUecc : Nat := 0x80C
/-- Offset of HBM_UADDR_LO (R254). -/
abbrev Off.hbmUaddrLo : Nat := 0x810
/-- Offset of HBM_UADDR_HI (R254). -/
abbrev Off.hbmUaddrHi : Nat := 0x814
/-- Offset of HBM_RDL (R254). -/
abbrev Off.hbmRdl : Nat := 0x818
/-- Offset of HBM_WRL (R254). -/
abbrev Off.hbmWrl : Nat := 0x81C
/-- Offset of HBM_RMW (R254). -/
abbrev Off.hbmRmw : Nat := 0x820
/-- Offset of HBM_TEMP (R254). -/
abbrev Off.hbmTemp : Nat := 0x824
/-- Offset of HBM_LMAPn (R254). -/
abbrev Off.hbmLmap : Nat := 0x840
/-- Offset of STK_ARB (R255). -/
abbrev Off.stkArb : Nat := 0x040
/-- Offset of STK_RQ (R255). -/
abbrev Off.stkRq : Nat := 0x800
/-- Offset of STK_RQPEAK (R255). -/
abbrev Off.stkRqpeak : Nat := 0x804
/-- Offset of STK_TIME_LO (R255). -/
abbrev Off.stkTimeLo : Nat := 0x808
/-- Offset of STK_TIME_HI (R255). -/
abbrev Off.stkTimeHi : Nat := 0x80C
/-- Offset of STK_MCFG (R256). -/
abbrev Off.stkMcfg : Nat := 0x040
/-- Offset of STK_MTOUT (R256). -/
abbrev Off.stkMtout : Nat := 0x044
/-- Offset of STK_TRAIN (R256). -/
abbrev Off.stkTrain : Nat := 0x800
/-- Offset of STK_TRES (R256). -/
abbrev Off.stkTres : Nat := 0x804
/-- Offset of STK_CECC (R256). -/
abbrev Off.stkCecc : Nat := 0x808
/-- Offset of STK_UECC (R256). -/
abbrev Off.stkUecc : Nat := 0x80C
/-- Offset of STK_UADDR_LO (R256). -/
abbrev Off.stkUaddrLo : Nat := 0x810
/-- Offset of STK_UADDR_HI (R256). -/
abbrev Off.stkUaddrHi : Nat := 0x814
/-- Offset of STK_RDL (R256). -/
abbrev Off.stkRdl : Nat := 0x818
/-- Offset of STK_WRL (R256). -/
abbrev Off.stkWrl : Nat := 0x81C
/-- Offset of STK_RMW (R256). -/
abbrev Off.stkRmw : Nat := 0x820
/-- Offset of STK_TEMP (R256). -/
abbrev Off.stkTemp : Nat := 0x824
/-- Offset of LNK_CFG (R288 to R290). -/
abbrev Off.lnkCfg : Nat := 0x040
/-- Offset of LNK_TRAIN (R288 to R290). -/
abbrev Off.lnkTrain : Nat := 0x800
/-- Offset of LNK_TXLANE (R288 to R290). -/
abbrev Off.lnkTxlane : Nat := 0x804
/-- Offset of LNK_RXLANE (R288 to R290). -/
abbrev Off.lnkRxlane : Nat := 0x808
/-- Offset of LNK_PEER (R288 to R290). -/
abbrev Off.lnkPeer : Nat := 0x80C
/-- Offset of LNK_FECCOR (R288 to R290). -/
abbrev Off.lnkFeccor : Nat := 0x810
/-- Offset of LNK_CRCERR (R288 to R290). -/
abbrev Off.lnkCrcerr : Nat := 0x814
/-- Offset of LNK_REPLAY (R288 to R290). -/
abbrev Off.lnkReplay : Nat := 0x818
/-- Offset of LNK_TXDATA (R288 to R290). -/
abbrev Off.lnkTxdata : Nat := 0x81C
/-- Offset of LNK_RXDATA (R288 to R290). -/
abbrev Off.lnkRxdata : Nat := 0x820
/-- Offset of LNK_BADPKT (R288 to R290). -/
abbrev Off.lnkBadpkt : Nat := 0x824
/-- Offset of LNK_CREDIT (R288 to R290). -/
abbrev Off.lnkCredit : Nat := 0x828
/-- Offset of LNK_LOST (R288 to R290). -/
abbrev Off.lnkLost : Nat := 0x82C
/-- Offset of LNK_RTd (R288 to R290). -/
abbrev Off.lnkRt : Nat := 0xC00
/-- Offset of LNK_RTGEN (R288 to R290). -/
abbrev Off.lnkRtgen : Nat := 0xC60
/-- Offset of LNK_FENCE (R288 to R290). -/
abbrev Off.lnkFence : Nat := 0xE00
/-- Offset of LNK_FSTAT (R288 to R290). -/
abbrev Off.lnkFstat : Nat := 0xE04
/-- Offset of LNK_FLOG (R288 to R290). -/
abbrev Off.lnkFlog : Nat := 0xE08
/-- Offset of LNK_DISC (R288 to R290). -/
abbrev Off.lnkDisc : Nat := 0xE0C
/-- Offset of LNK_BISECT (R288 to R290). -/
abbrev Off.lnkBisect : Nat := 0xE10
/-- Offset of CRU_GROUP (R311). -/
abbrev Off.cruGroup : Nat := 0x040
/-- Offset of CRU_CFG (R311). -/
abbrev Off.cruCfg : Nat := 0x044
/-- Offset of CRU_AFLAGS (R311). -/
abbrev Off.cruAflags : Nat := 0x800
/-- Offset of CRU_SEQ (R311). -/
abbrev Off.cruSeq : Nat := 0x804
/-- Offset of CRU_SLOTS (R311). -/
abbrev Off.cruSlots : Nat := 0x808
/-- Offset of CRU_ADDS (R311). -/
abbrev Off.cruAdds : Nat := 0x80C
/-- Offset of CRU_THIN (R311). -/
abbrev Off.cruThin : Nat := 0x810
/-- Offset of CRU_FAULT (R311). -/
abbrev Off.cruFault : Nat := 0x814
/-- Offset of CRU_FAULT_SEQ (R311). -/
abbrev Off.cruFaultSeq : Nat := 0x818
/-- Offset of MLT_BOOT (R330). -/
abbrev Off.mltBoot : Nat := 0x040
/-- Offset of MLT_CFG (R330). -/
abbrev Off.mltCfg : Nat := 0x044
/-- Offset of MLT_LTAB (R330). -/
abbrev Off.mltLtab : Nat := 0x048
/-- Offset of MLT_LNUM (R330). -/
abbrev Off.mltLnum : Nat := 0x04C
/-- Offset of MLT_RESUME (R330). -/
abbrev Off.mltResume : Nat := 0x800
/-- Offset of MLT_RPC (R330). -/
abbrev Off.mltRpc : Nat := 0x804
/-- Offset of MLT_PSTAT (R330). -/
abbrev Off.mltPstat : Nat := 0x808
/-- Offset of MLT_EXC (R330). -/
abbrev Off.mltExc : Nat := 0x80C
/-- Offset of MLT_EXC_PC (R330). -/
abbrev Off.mltExcPc : Nat := 0x810
/-- Offset of MLT_EXC_VAL (R330). -/
abbrev Off.mltExcVal : Nat := 0x814
/-- Offset of MLT_EXC_CLR (R330). -/
abbrev Off.mltExcClr : Nat := 0x818
/-- Offset of MLT_LSEL (R330). -/
abbrev Off.mltLsel : Nat := 0x840
/-- Offset of MLT_AFLAGS (R330). -/
abbrev Off.mltAflags : Nat := 0x844
/-- Offset of MLT_GDROP (R330). -/
abbrev Off.mltGdrop : Nat := 0x848
/-- Offset of MLT_CHUNK (R330). -/
abbrev Off.mltChunk : Nat := 0x84C
/-- Offset of MLT_ELEM (R330). -/
abbrev Off.mltElem : Nat := 0x850
/-- Offset of SPC_CFG (R331). -/
abbrev Off.spcCfg : Nat := 0x040
/-- Offset of SPC_TSTAT (R331). -/
abbrev Off.spcTstat : Nat := 0x800
/-- Offset of SPC_HELD (R331). -/
abbrev Off.spcHeld : Nat := 0x804
/-- Offset of SPC_STALL (R331). -/
abbrev Off.spcStall : Nat := 0x808
/-- Offset of SPC_DROPW (R331). -/
abbrev Off.spcDropw : Nat := 0x80C
/-- Offset of SPC_COMMIT (R331). -/
abbrev Off.spcCommit : Nat := 0x810
/-- Offset of SPC_DISC (R331). -/
abbrev Off.spcDisc : Nat := 0x814
/-- Offset of SPC_TLOG (R331). -/
abbrev Off.spcTlog : Nat := 0x818
/-- Offset of SPC_SHDn (R331). -/
abbrev Off.spcShd : Nat := 0x840
/-- Offset of WBG_TIME_LO (R354). -/
abbrev Off.wbgTimeLo : Nat := 0x800
/-- Offset of WBG_TIME_HI (R354). -/
abbrev Off.wbgTimeHi : Nat := 0x804
/-- Offset of WBG_IRQSUM (R354). -/
abbrev Off.wbgIrqsum : Nat := 0x808
/-- Offset of WBG_IRQREARM (R354). -/
abbrev Off.wbgIrqrearm : Nat := 0x80C
/-- Offset of WBG_IRQPENDd_w (R354). -/
abbrev Off.wbgIrqpend : Nat := 0xC00
/-- Offset of WBG_LINK (R355). -/
abbrev Off.wbgLink : Nat := 0x800
/-- Offset of WBG_AER_CE (R355). -/
abbrev Off.wbgAerCe : Nat := 0x804
/-- Offset of WBG_AER_UE (R355). -/
abbrev Off.wbgAerUe : Nat := 0x808
/-- Offset of WBG_ECRC (R355). -/
abbrev Off.wbgEcrc : Nat := 0x80C
/-- Offset of WBG_RDPEND (R355). -/
abbrev Off.wbgRdpend : Nat := 0x810
/-- Offset of WBG_HOSTERR (R355). -/
abbrev Off.wbgHosterr : Nat := 0x814
/-- Offset of WBG_DRAIN (R356). -/
abbrev Off.wbgDrain : Nat := 0x800
/-- Offset of WBG_DRSTAT (R356). -/
abbrev Off.wbgDrstat : Nat := 0x804
/-- Offset of WBG_DWLOG (R356). -/
abbrev Off.wbgDwlog : Nat := 0x808
/-- Offset of WBG_DWADDR (R356). -/
abbrev Off.wbgDwaddr : Nat := 0x80C
/-- Offset of WBG_DWCNT (R356). -/
abbrev Off.wbgDwcnt : Nat := 0x810
/-- Offset of CMD_CFG (R357). -/
abbrev Off.cmdCfg : Nat := 0x040
/-- Offset of CMD_INFL (R357). -/
abbrev Off.cmdInfl : Nat := 0x800
/-- Offset of CMD_STAGE (R357). -/
abbrev Off.cmdStage : Nat := 0x804
/-- Offset of CMD_HALT0 (R357). -/
abbrev Off.cmdHalt : Nat := 0x808
/-- Offset of CMD_SQBASE_LO (R358). -/
abbrev Off.cmdSqbaseLo : Nat := 0x040
/-- Offset of CMD_SQBASE_HI (R358). -/
abbrev Off.cmdSqbaseHi : Nat := 0x044
/-- Offset of CMD_SQCFG (R358). -/
abbrev Off.cmdSqcfg : Nat := 0x048
/-- Offset of CMD_CQBASE_LO (R358). -/
abbrev Off.cmdCqbaseLo : Nat := 0x04C
/-- Offset of CMD_CQBASE_HI (R358). -/
abbrev Off.cmdCqbaseHi : Nat := 0x050
/-- Offset of CMD_CQCFG (R358). -/
abbrev Off.cmdCqcfg : Nat := 0x054
/-- Offset of CMD_CQIRQ (R358). -/
abbrev Off.cmdCqirq : Nat := 0x058
/-- Offset of CMD_WB_LO (R358). -/
abbrev Off.cmdWbLo : Nat := 0x05C
/-- Offset of CMD_WB_HI (R358). -/
abbrev Off.cmdWbHi : Nat := 0x060
/-- Offset of CMD_TOUT (R358). -/
abbrev Off.cmdTout : Nat := 0x064
/-- Offset of CMD_SQTAIL (R358). -/
abbrev Off.cmdSqtail : Nat := 0x800
/-- Offset of CMD_SQHEAD (R358). -/
abbrev Off.cmdSqhead : Nat := 0x804
/-- Offset of CMD_CQTAIL (R358). -/
abbrev Off.cmdCqtail : Nat := 0x808
/-- Offset of CMD_CQHEAD (R358). -/
abbrev Off.cmdCqhead : Nat := 0x80C
/-- Offset of CMD_NCTR_LO (R358). -/
abbrev Off.cmdNctrLo : Nat := 0x810
/-- Offset of CMD_NCTR_HI (R358). -/
abbrev Off.cmdNctrHi : Nat := 0x814
/-- Offset of CMD_RINFL (R358). -/
abbrev Off.cmdRinfl : Nat := 0x818
/-- Offset of CMD_DONE (R358). -/
abbrev Off.cmdDone : Nat := 0x81C
/-- Offset of CMD_ERR (R358). -/
abbrev Off.cmdErr : Nat := 0x820
/-- Offset of WBG_CMB_OP (R381). -/
abbrev Off.wbgCmbOp : Nat := 0x800
/-- Offset of WBG_CMB_ARG0 (R381). -/
abbrev Off.wbgCmbArg0 : Nat := 0x804
/-- Offset of WBG_CMB_ARG1 (R381). -/
abbrev Off.wbgCmbArg1 : Nat := 0x808
/-- Offset of WBG_CMB_NKEYw (R381). -/
abbrev Off.wbgCmbNkey : Nat := 0x840
/-- Offset of WBG_CMB_SKEYw (R381). -/
abbrev Off.wbgCmbSkey : Nat := 0x880
/-- Offset of WBG_CMB_SIGw (R381). -/
abbrev Off.wbgCmbSig : Nat := 0x8C0
/-- Offset of WBG_CMB_GO (R381). -/
abbrev Off.wbgCmbGo : Nat := 0x900
/-- Offset of CAR_MBSTAT (R382). -/
abbrev Off.carMbstat : Nat := 0x800
/-- Offset of CAR_ERR (R382). -/
abbrev Off.carErr : Nat := 0x804
/-- Offset of CAR_OPS (R382). -/
abbrev Off.carOps : Nat := 0x808
/-- Offset of CAR_MCNT (R383). -/
abbrev Off.carMcnt : Nat := 0x800
/-- Offset of CAR_MEASn (R383). -/
abbrev Off.carMeas : Nat := 0x820
/-- Offset of CAR_MLOGk_w (R383). -/
abbrev Off.carMlog : Nat := 0xC00
/-- Offset of CAR_SERIALw (R384). -/
abbrev Off.carSerial : Nat := 0x800
/-- Offset of CAR_DIKPUBw (R384). -/
abbrev Off.carDikpub : Nat := 0x840
/-- Offset of CAR_ENDORSEw (R384). -/
abbrev Off.carEndorse : Nat := 0x880
/-- Offset of CAR_QUOTES (R384). -/
abbrev Off.carQuotes : Nat := 0x8C0
/-- Offset of CAR_SESS0 (R385). -/
abbrev Off.carSess0 : Nat := 0x800
/-- Offset of CAR_SESS1 (R385). -/
abbrev Off.carSess1 : Nat := 0x804
/-- Offset of CAR_KEYXN (R385). -/
abbrev Off.carKeyxn : Nat := 0x808
/-- Offset of CAR_CSTATEw (R386). -/
abbrev Off.carCstate : Nat := 0x800
/-- Offset of CAR_BOWNw (R386). -/
abbrev Off.carBown : Nat := 0x840
/-- Offset of CAR_CTXCMD (R386). -/
abbrev Off.carCtxcmd : Nat := 0x860
/-- Offset of CAR_EXPN (R387). -/
abbrev Off.carExpn : Nat := 0x800
/-- Offset of CAR_EXPB (R387). -/
abbrev Off.carExpb : Nat := 0x804
/-- Offset of CAR_EXPPLAIN (R387). -/
abbrev Off.carExpplain : Nat := 0x808
/-- Offset of FUS_SVN (R388). -/
abbrev Off.fusSvn : Nat := 0x800
/-- Offset of FUS_OWN (R388). -/
abbrev Off.fusOwn : Nat := 0x804
/-- Offset of FUS_RET (R388). -/
abbrev Off.fusRet : Nat := 0x808
/-- Offset of FUS_RETPEND (R388). -/
abbrev Off.fusRetpend : Nat := 0x80C
/-- Offset of FUS_LOCK (R388). -/
abbrev Off.fusLock : Nat := 0x810
/-- Offset of FUS_LOGN (R388). -/
abbrev Off.fusLogn : Nat := 0x814
/-- Offset of FUS_OWNHs_w (R388). -/
abbrev Off.fusOwnh : Nat := 0xC00
/-- Offset of FUS_LOGk_LO (R388). -/
abbrev Off.fusLogLo : Nat := 0x800
/-- Offset of FUS_LOGk_HI (R388). -/
abbrev Off.fusLogHi : Nat := 0x804
/-- Offset of WBG_BSTAT (R405). -/
abbrev Off.wbgBstat : Nat := 0x800
/-- Offset of WBG_BCODE (R405). -/
abbrev Off.wbgBcode : Nat := 0x804
/-- Offset of WBG_ABSENT (R405). -/
abbrev Off.wbgAbsent : Nat := 0x808
/-- Offset of WBG_BTRIES (R405). -/
abbrev Off.wbgBtries : Nat := 0x80C
/-- Offset of WBG_BSTAGEn (R405). -/
abbrev Off.wbgBstage : Nat := 0x840
/-- Offset of WBG_SMB_OP (R408). -/
abbrev Off.wbgSmbOp : Nat := 0x800
/-- Offset of WBG_SMB_ARG0 (R408). -/
abbrev Off.wbgSmbArg0 : Nat := 0x804
/-- Offset of WBG_SMB_ARG1 (R408). -/
abbrev Off.wbgSmbArg1 : Nat := 0x808
/-- Offset of WBG_SMB_GO (R408). -/
abbrev Off.wbgSmbGo : Nat := 0x80C
/-- Offset of SAF_TIME_LO (R427). -/
abbrev Off.safTimeLo : Nat := 0x800
/-- Offset of SAF_TIME_HI (R427). -/
abbrev Off.safTimeHi : Nat := 0x804
/-- Offset of SAF_POLSVN (R427). -/
abbrev Off.safPolsvn : Nat := 0x808
/-- Offset of CPV_DOM (R430). -/
abbrev Off.cpvDom : Nat := 0x800
/-- Offset of CPV_FREQ (R430). -/
abbrev Off.cpvFreq : Nat := 0x804
/-- Offset of CPV_CAUSE (R430). -/
abbrev Off.cpvCause : Nat := 0x808
/-- Offset of CPV_TEMP (R430). -/
abbrev Off.cpvTemp : Nat := 0x80C
/-- Offset of CPV_BRAKES (R430). -/
abbrev Off.cpvBrakes : Nat := 0x810
/-- Offset of SAF_MBSTAT (R428). -/
abbrev Off.safMbstat : Nat := 0x800
/-- Offset of SAF_MBRES (R428). -/
abbrev Off.safMbres : Nat := 0x804
/-- Offset of SAF_DOMON0 (R428). -/
abbrev Off.safDomon0 : Nat := 0x800
/-- Offset of SAF_DOMON1 (R428). -/
abbrev Off.safDomon1 : Nat := 0x804
/-- Offset of SAF_DOMBUSY (R428). -/
abbrev Off.safDombusy : Nat := 0x808
/-- Offset of SAF_VIN (R428). -/
abbrev Off.safVin : Nat := 0x800
/-- Offset of SAF_IIN (R428). -/
abbrev Off.safIin : Nat := 0x804
/-- Offset of SAF_IPEAK (R428). -/
abbrev Off.safIpeak : Nat := 0x808
/-- Offset of SAF_ILIM (R428). -/
abbrev Off.safIlim : Nat := 0x80C
/-- Offset of SAF_ISTEP (R428). -/
abbrev Off.safIstep : Nat := 0x810
/-- Offset of SAF_TMAX (R428). -/
abbrev Off.safTmax : Nat := 0x800
/-- Offset of SAF_TLIM0 (R428). -/
abbrev Off.safTlim0 : Nat := 0x804
/-- Offset of SAF_TSTEP (R428). -/
abbrev Off.safTstep : Nat := 0x810
/-- Offset of SAF_WDCFG (R428). -/
abbrev Off.safWdcfg : Nat := 0x800
/-- Offset of SAF_WDREM (R428). -/
abbrev Off.safWdrem : Nat := 0x804
/-- Offset of SAF_WDEXP (R428). -/
abbrev Off.safWdexp : Nat := 0x808
/-- Offset of SAF_FCEIL (R428). -/
abbrev Off.safFceil : Nat := 0x800
/-- Offset of SAF_FCUR (R428). -/
abbrev Off.safFcur : Nat := 0x810
/-- Offset of SAF_SPREAD (R428). -/
abbrev Off.safSpread : Nat := 0x820
/-- Offset of SAF_PLLLOST (R428). -/
abbrev Off.safPlllost : Nat := 0x824
/-- Offset of SAF_RCAUSE (R428). -/
abbrev Off.safRcause : Nat := 0x800
/-- Offset of SAF_RCNT (R428). -/
abbrev Off.safRcnt : Nat := 0x804
/-- Offset of SAF_BRESET (R428). -/
abbrev Off.safBreset : Nat := 0x808
/-- Offset of SAF_FLOGN (R429). -/
abbrev Off.safFlogn : Nat := 0x800
/-- Offset of SAF_FLOG (R429). -/
abbrev Off.safFlog : Nat := 0xC00
/-- Offset of MSIX_TABLE (R21). -/
abbrev Off.msixTable : Nat := 0x000
/-- Offset of MSIX_PBA (R21). -/
abbrev Off.msixPba : Nat := 0x000

/-- The registers of a fcc page, offsets from 0x040 (R96). -/
def regsFcc : List RegDesc := [
  ⟨Off.fccBoot, 1, 4, 0x3ffff, 0, 0, 0, 0, 0⟩,
  ⟨Off.fccResume, 1, 4, 0, 0, 0x7, 0, 0, 0⟩,
  ⟨Off.fccRpc, 1, 4, 0x1ffff, 0, 0, 0, 0, 0⟩,
  ⟨Off.fccPstat, 1, 4, 0, 0, 0, 0, 0xFFFFFFFF, 0⟩,
  ⟨Off.fccExc, 1, 4, 0, 0, 0, 0, 0xfffff, 0⟩,
  ⟨Off.fccExcPc, 1, 4, 0, 0, 0, 0, 0x3ffff, 0⟩,
  ⟨Off.fccExcVal, 1, 4, 0, 0, 0, 0, 0xFFFFFFFF, 0⟩,
  ⟨Off.fccExcClr, 1, 4, 0, 0, 0x1, 0, 0, 0⟩,
  ⟨Off.fccIrefAddr, 1, 4, 0, 0, 0, 0x8003ffff, 0, 0⟩,
  ⟨Off.fccIrefCnt, 1, 4, 0, 0, 0, 0xFFFFFFFF, 0, 0⟩,
  ⟨Off.fccQdisc, 1, 4, 0, 0, 0, 0xFFFFFFFF, 0, 0⟩,
  ⟨Off.fccQocc, 1, 4, 0, 0, 0, 0, 0x3fffffff, 0⟩]

/-- The registers of a ben page, offsets from 0x040 (R115). -/
def regsBen : List RegDesc := [
  ⟨Off.benDepwd, 1, 4, 0xffffff, 0, 0, 0, 0, 0x400⟩,
  ⟨Off.benDepStall, 1, 4, 0, 0x3f, 0, 0, 0, 0⟩,
  ⟨Off.benDepSat, 1, 4, 0, 0x3f, 0, 0, 0, 0⟩,
  ⟨Off.benRsigLog, 1, 4, 0, 0, 0, 0x80ffffff, 0, 0⟩,
  ⟨Off.benRsigWord, 1, 4, 0, 0, 0, 0xFFFFFFFF, 0, 0⟩,
  ⟨Off.benRsigCnt, 1, 4, 0, 0, 0, 0xFFFFFFFF, 0, 0⟩,
  ⟨Off.benDepWait, 6, 4, 0, 0, 0, 0, 0x7f, 0⟩]

/-- The registers of a slb page, offsets from 0x040 (R136). -/
def regsSlb : List RegDesc := [
  ⟨Off.slbVbyp0, 1, 4, 0xFFFFFFFF, 0, 0, 0, 0, 0⟩,
  ⟨Off.slbVbyp1, 1, 4, 0xFFFFFFFF, 0, 0, 0, 0, 0⟩,
  ⟨Off.slbCfg, 1, 4, 0x1, 0, 0, 0, 0, 0⟩,
  ⟨Off.slbGeom, 1, 4, 0, 0, 0, 0, 0x3fffff, 0x8000⟩,
  ⟨Off.slbFbyp0, 1, 4, 0, 0, 0, 0, 0xFFFFFFFF, 0⟩,
  ⟨Off.slbFbyp1, 1, 4, 0, 0, 0, 0, 0xFFFFFFFF, 0⟩,
  ⟨Off.slbStrm, 1, 4, 0, 0, 0, 0xFFFFFFFF, 0, 0⟩,
  ⟨Off.slbPar, 1, 4, 0, 0, 0, 0x8000ffff, 0, 0⟩,
  ⟨Off.slbParcnt, 1, 4, 0, 0, 0, 0xFFFFFFFF, 0, 0⟩,
  ⟨Off.slbTest, 1, 4, 0, 0, 0x1, 0, 0, 0⟩,
  ⟨Off.slbTfail0, 1, 4, 0, 0, 0, 0, 0xFFFFFFFF, 0⟩,
  ⟨Off.slbTfail1, 1, 4, 0, 0, 0, 0, 0xFFFFFFFF, 0⟩]

/-- The registers of a chu page, offsets from 0x040 (R159). -/
def regsChu : List RegDesc := [
  ⟨Off.chuCfg, 1, 4, 0x3, 0, 0, 0, 0, 0⟩,
  ⟨Off.chuOps, 1, 4, 0, 0, 0, 0xFFFFFFFF, 0, 0⟩,
  ⟨Off.chuBusy, 1, 4, 0, 0, 0, 0xFFFFFFFF, 0, 0⟩,
  ⟨Off.chuLost, 1, 4, 0, 0, 0, 0xFFFFFFFF, 0, 0⟩]

/-- The registers of a vec page, offsets from 0x040 (R160). -/
def regsVec : List RegDesc := [
  ⟨Off.vecCfg, 1, 4, 0xf, 0, 0, 0, 0, 0⟩,
  ⟨Off.vecOring, 1, 4, 0xff7fffff, 0, 0, 0, 0, 0⟩,
  ⟨Off.vecOfmt, 1, 4, 0xff, 0, 0, 0, 0, 0⟩,
  ⟨Off.vecOsig, 1, 4, 0x7fff, 0, 0, 0, 0, 0⟩,
  ⟨Off.vecSring, 1, 4, 0xff7fffff, 0, 0, 0, 0, 0⟩,
  ⟨Off.vecSfmt, 1, 4, 0xf, 0, 0, 0, 0, 0⟩,
  ⟨Off.vecSsig, 1, 4, 0x7fff, 0, 0, 0, 0, 0⟩,
  ⟨Off.vecAflags, 1, 4, 0, 0x7, 0, 0, 0, 0⟩,
  ⟨Off.vecSeedLo, 1, 4, 0xFFFFFFFF, 0, 0, 0, 0, 0⟩,
  ⟨Off.vecSeedHi, 1, 4, 0xFFFFFFFF, 0, 0, 0, 0, 0⟩,
  ⟨Off.vecSeedLd, 1, 4, 0, 0, 0x1, 0, 0, 0⟩,
  ⟨Off.vecLfsrLo, 1, 4, 0, 0, 0, 0, 0xFFFFFFFF, 0x1⟩,
  ⟨Off.vecLfsrHi, 1, 4, 0, 0, 0, 0, 0xFFFFFFFF, 0⟩,
  ⟨Off.vecTq, 1, 4, 0, 0, 0, 0, 0xffff, 0⟩,
  ⟨Off.vecOpos, 1, 4, 0, 0, 0, 0, 0x7ff07ff, 0⟩,
  ⟨Off.vecSigdrop, 1, 4, 0, 0, 0, 0xFFFFFFFF, 0, 0⟩]

/-- The registers of a wev page, offsets from 0x040 (R184, R199). -/
def regsWev : List RegDesc := [
  ⟨Off.wevCfg, 1, 4, 0x1, 0, 0, 0, 0, 0⟩,
  ⟨Off.wevOps, 1, 4, 0, 0, 0, 0xFFFFFFFF, 0, 0⟩,
  ⟨Off.wevBusy, 1, 4, 0, 0, 0, 0xFFFFFFFF, 0, 0⟩,
  ⟨Off.wevSplit, 1, 4, 0, 0, 0, 0xFFFFFFFF, 0, 0⟩,
  ⟨Off.wevLost, 1, 4, 0, 0, 0, 0xFFFFFFFF, 0, 0⟩,
  ⟨Off.wevLast, 1, 4, 0, 0, 0, 0, 0x1fffff, 0⟩,
  ⟨Off.wevFault, 1, 4, 0, 0, 0, 0x8000ffff, 0, 0⟩,
  ⟨Off.wevFaultIdx, 1, 4, 0, 0, 0, 0xFFFFFFFF, 0, 0⟩,
  ⟨Off.wevFaultVal, 1, 4, 0, 0, 0, 0xFFFFFFFF, 0, 0⟩,
  ⟨Off.wevRtGeom, 1, 4, 0x3fff, 0, 0, 0, 0, 0⟩,
  ⟨Off.wevRtCap, 1, 4, 0x1fff, 0, 0, 0, 0, 0⟩,
  ⟨Off.wevRtSeedt, 1, 4, 0x7fffff, 0, 0, 0, 0, 0⟩,
  ⟨Off.wevRtScore, 1, 4, 0x7fffff, 0, 0, 0, 0, 0⟩,
  ⟨Off.wevRtMidx, 1, 4, 0x7fffff, 0, 0, 0, 0, 0⟩,
  ⟨Off.wevRtMwgt, 1, 4, 0x7fffff, 0, 0, 0, 0, 0⟩,
  ⟨Off.wevRtDrop, 1, 4, 0x7fffff, 0, 0, 0, 0, 0⟩,
  ⟨Off.wevRtCnt, 1, 4, 0x7fffff, 0, 0, 0, 0, 0⟩,
  ⟨Off.wevRtBal, 1, 4, 0x7fffff, 0, 0, 0, 0, 0⟩,
  ⟨Off.wevDropCnt, 1, 4, 0, 0, 0, 0xFFFFFFFF, 0, 0⟩,
  ⟨Off.wevOvfCnt, 1, 4, 0, 0, 0, 0xFFFFFFFF, 0, 0⟩,
  ⟨Off.wevRtProbes, 1, 4, 0, 0, 0, 0, 0xFFFFFFFF, 0⟩,
  ⟨Off.wevRtFull0, 1, 4, 0, 0, 0, 0, 0xFFFFFFFF, 0⟩,
  ⟨Off.wevRtFull1, 1, 4, 0, 0, 0, 0, 0xFFFFFFFF, 0⟩,
  ⟨Off.wevRtTdrop, 1, 4, 0, 0, 0, 0xFFFFFFFF, 0, 0⟩]

/-- The registers of a siv page, offsets from 0x040 (R185). -/
def regsSiv : List RegDesc := [
  ⟨Off.sivCfg, 1, 4, 0x3fff, 0, 0, 0, 0, 0⟩,
  ⟨Off.sivVhdr, 1, 4, 0xff7fffff, 0, 0, 0, 0, 0⟩,
  ⟨Off.sivVsig, 1, 4, 0x7fff, 0, 0, 0, 0, 0⟩,
  ⟨Off.sivTens, 1, 4, 0, 0, 0, 0xFFFFFFFF, 0, 0⟩,
  ⟨Off.sivDense, 1, 4, 0, 0, 0, 0xFFFFFFFF, 0, 0⟩,
  ⟨Off.sivBlkin, 1, 4, 0, 0, 0, 0xFFFFFFFF, 0, 0⟩,
  ⟨Off.sivBlkout, 1, 4, 0, 0, 0, 0xFFFFFFFF, 0, 0⟩,
  ⟨Off.sivFault, 1, 4, 0, 0, 0, 0x8001ffff, 0, 0⟩,
  ⟨Off.sivFaultHdr, 1, 4, 0, 0, 0, 0x7fffff, 0, 0⟩]

/-- The registers of a hlr page, offsets from 0x040 (R222). -/
def regsHlr : List RegDesc := [
  ⟨Off.hlrCfg, 1, 4, 0xff, 0, 0, 0, 0, 0⟩,
  ⟨Off.hlrSlot, 256, 4, 0xFFFFFFFF, 0, 0, 0, 0, 0⟩,
  ⟨Off.hlrKick, 1, 4, 0, 0, 0x7, 0, 0, 0⟩,
  ⟨Off.hlrKdone, 1, 4, 0, 0xff, 0, 0, 0, 0⟩,
  ⟨Off.hlrOps, 1, 4, 0, 0, 0, 0xFFFFFFFF, 0, 0⟩,
  ⟨Off.hlrBytes, 1, 4, 0, 0, 0, 0xFFFFFFFF, 0, 0⟩,
  ⟨Off.hlrAcc, 1, 4, 0, 0, 0, 0xFFFFFFFF, 0, 0⟩,
  ⟨Off.hlrFault, 1, 4, 0, 0, 0, 0x800fffff, 0, 0⟩,
  ⟨Off.hlrFaultAddrLo, 1, 4, 0, 0, 0, 0xFFFFFFFF, 0, 0⟩,
  ⟨Off.hlrFaultAddrHi, 1, 4, 0, 0, 0, 0xFFFFFFFF, 0, 0⟩,
  ⟨Off.hlrFaultElem, 1, 4, 0, 0, 0, 0xFFFFFFFF, 0, 0⟩]

/-- The registers of a xlt page, offsets from 0x040 (R223). -/
def regsXlt : List RegDesc := [
  ⟨Off.xltRoot, 1, 4, 0xfffff, 0, 0, 0, 0, 0⟩,
  ⟨Off.xltLim, 1, 4, 0x7fff, 0, 0, 0, 0, 0⟩,
  ⟨Off.xltInv, 1, 4, 0, 0, 0x1, 0, 0, 0⟩,
  ⟨Off.xltFault, 1, 4, 0, 0, 0, 0x80ffffff, 0, 0⟩,
  ⟨Off.xltFaultVaLo, 1, 4, 0, 0, 0, 0xFFFFFFFF, 0, 0⟩,
  ⟨Off.xltFaultVaHi, 1, 4, 0, 0, 0, 0xFFFFFFFF, 0, 0⟩,
  ⟨Off.xltMiss, 1, 4, 0, 0, 0, 0xFFFFFFFF, 0, 0⟩,
  ⟨Off.xltWalk, 1, 4, 0, 0, 0, 0xFFFFFFFF, 0, 0⟩]

/-- The registers of a gal page, offsets from 0x040 (R253). -/
def regsGal : List RegDesc := [
  ⟨Off.galWays, 1, 4, 0x71f1f, 0, 0, 0, 0, 0x1000⟩,
  ⟨Off.galPf, 1, 4, 0x1f, 0, 0, 0, 0, 0⟩,
  ⟨Off.galRtmin, 1, 4, 0xfff0fff, 0, 0, 0, 0, 0⟩,
  ⟨Off.galBankcap, 1, 4, 0x7ff, 0, 0, 0, 0, 0x400⟩,
  ⟨Off.galEpoch, 1, 4, 0, 0, 0x1, 0, 0xff00, 0⟩,
  ⟨Off.galFlush, 1, 4, 0, 0, 0x3, 0, 0, 0⟩,
  ⟨Off.galHot, 1, 4, 0, 0, 0, 0xff8007ff, 0, 0⟩,
  ⟨Off.galHotcnt, 1, 4, 0, 0, 0, 0xFFFFFFFF, 0, 0⟩,
  ⟨Off.galRtocc, 1, 4, 0, 0, 0, 0, 0x7fff, 0⟩,
  ⟨Off.galRtpeak, 1, 4, 0, 0, 0, 0xFFFFFFFF, 0, 0⟩,
  ⟨Off.galHit, 1, 4, 0, 0, 0, 0xFFFFFFFF, 0, 0⟩,
  ⟨Off.galMiss, 1, 4, 0, 0, 0, 0xFFFFFFFF, 0, 0⟩,
  ⟨Off.galPfdrop, 1, 4, 0, 0, 0, 0xFFFFFFFF, 0, 0⟩,
  ⟨Off.galAtom, 1, 4, 0, 0, 0, 0xFFFFFFFF, 0, 0⟩,
  ⟨Off.galSpecl, 1, 4, 0, 0, 0, 0, 0x7ffff, 0⟩,
  ⟨Off.galFault, 1, 4, 0, 0, 0, 0x8007ffff, 0, 0⟩]

/-- The registers of a hbm page, offsets from 0x040 (R254). -/
def regsHbm : List RegDesc := [
  ⟨Off.hbmCfg, 1, 4, 0x17, 0, 0, 0, 0, 0x11⟩,
  ⟨Off.hbmTout, 1, 4, 0xfff, 0, 0, 0, 0, 0x3e8⟩,
  ⟨Off.hbmTrain, 1, 4, 0, 0, 0x1, 0, 0, 0⟩,
  ⟨Off.hbmTres, 1, 4, 0, 0, 0, 0, 0x1ffffff, 0⟩,
  ⟨Off.hbmCecc, 1, 4, 0, 0, 0, 0xFFFFFFFF, 0, 0⟩,
  ⟨Off.hbmUecc, 1, 4, 0, 0, 0, 0xFFFFFFFF, 0, 0⟩,
  ⟨Off.hbmUaddrLo, 1, 4, 0, 0, 0, 0xFFFFFFFF, 0, 0⟩,
  ⟨Off.hbmUaddrHi, 1, 4, 0, 0, 0, 0x8000000f, 0, 0⟩,
  ⟨Off.hbmRdl, 1, 4, 0, 0, 0, 0xFFFFFFFF, 0, 0⟩,
  ⟨Off.hbmWrl, 1, 4, 0, 0, 0, 0xFFFFFFFF, 0, 0⟩,
  ⟨Off.hbmRmw, 1, 4, 0, 0, 0, 0xFFFFFFFF, 0, 0⟩,
  ⟨Off.hbmTemp, 1, 4, 0, 0, 0, 0, 0xff, 0⟩,
  ⟨Off.hbmLmap, 16, 4, 0, 0, 0, 0, 0x3ffff, 0xffff⟩]

/-- The registers of a stk page, offsets from 0x040 (R255). -/
def regsStk : List RegDesc := [
  ⟨Off.stkArb, 1, 4, 0xffff, 0, 0, 0, 0, 0x1111⟩,
  ⟨Off.stkRq, 1, 4, 0, 0, 0, 0, 0x3fff, 0⟩,
  ⟨Off.stkRqpeak, 1, 4, 0, 0, 0, 0xFFFFFFFF, 0, 0⟩,
  ⟨Off.stkTimeLo, 1, 4, 0, 0, 0, 0, 0xFFFFFFFF, 0⟩,
  ⟨Off.stkTimeHi, 1, 4, 0, 0, 0, 0, 0xFFFFFFFF, 0⟩]

/-- The registers of a stkCtl page, offsets from 0x040 (R256). -/
def regsStkCtl : List RegDesc := [
  ⟨Off.stkMcfg, 1, 4, 0x17, 0, 0, 0, 0, 0x11⟩,
  ⟨Off.stkMtout, 1, 4, 0xfff, 0, 0, 0, 0, 0x3e8⟩,
  ⟨Off.stkTrain, 1, 4, 0, 0, 0x1, 0, 0, 0⟩,
  ⟨Off.stkTres, 1, 4, 0, 0, 0, 0, 0xffff, 0⟩,
  ⟨Off.stkCecc, 1, 4, 0, 0, 0, 0xFFFFFFFF, 0, 0⟩,
  ⟨Off.stkUecc, 1, 4, 0, 0, 0, 0xFFFFFFFF, 0, 0⟩,
  ⟨Off.stkUaddrLo, 1, 4, 0, 0, 0, 0xFFFFFFFF, 0, 0⟩,
  ⟨Off.stkUaddrHi, 1, 4, 0, 0, 0, 0x8000000f, 0, 0⟩,
  ⟨Off.stkRdl, 1, 4, 0, 0, 0, 0xFFFFFFFF, 0, 0⟩,
  ⟨Off.stkWrl, 1, 4, 0, 0, 0, 0xFFFFFFFF, 0, 0⟩,
  ⟨Off.stkRmw, 1, 4, 0, 0, 0, 0xFFFFFFFF, 0, 0⟩,
  ⟨Off.stkTemp, 1, 4, 0, 0, 0, 0, 0xff, 0⟩]

/-- The registers of a lnk page, offsets from 0x040 (R288 to R290). -/
def regsLnk : List RegDesc := [
  ⟨Off.lnkCfg, 1, 4, 0xff3f, 0, 0, 0, 0, 0x4010⟩,
  ⟨Off.lnkTrain, 1, 4, 0, 0, 0x1, 0, 0, 0⟩,
  ⟨Off.lnkTxlane, 1, 4, 0, 0, 0, 0, 0x33ffff, 0⟩,
  ⟨Off.lnkRxlane, 1, 4, 0, 0, 0, 0, 0x33ffff, 0⟩,
  ⟨Off.lnkPeer, 1, 4, 0, 0, 0, 0, 0xff, 0⟩,
  ⟨Off.lnkFeccor, 1, 4, 0, 0, 0, 0xFFFFFFFF, 0, 0⟩,
  ⟨Off.lnkCrcerr, 1, 4, 0, 0, 0, 0xFFFFFFFF, 0, 0⟩,
  ⟨Off.lnkReplay, 1, 4, 0, 0, 0, 0xFFFFFFFF, 0, 0⟩,
  ⟨Off.lnkTxdata, 1, 4, 0, 0, 0, 0xFFFFFFFF, 0, 0⟩,
  ⟨Off.lnkRxdata, 1, 4, 0, 0, 0, 0xFFFFFFFF, 0, 0⟩,
  ⟨Off.lnkBadpkt, 1, 4, 0, 0, 0, 0xFFFFFFFF, 0, 0⟩,
  ⟨Off.lnkCredit, 1, 4, 0, 0, 0, 0, 0x7ff, 0x400⟩,
  ⟨Off.lnkLost, 1, 4, 0, 0, 0, 0xFFFFFFFF, 0, 0⟩,
  ⟨Off.lnkRt, 23, 4, 0, 0, 0, 0, 0x803fffff, 0⟩,
  ⟨Off.lnkRtgen, 1, 4, 0, 0, 0, 0, 0xFFFFFFFF, 0⟩,
  ⟨Off.lnkFence, 1, 4, 0, 0, 0x8000031f, 0, 0, 0⟩,
  ⟨Off.lnkFstat, 1, 4, 0, 0, 0, 0, 0xffff03ff, 0⟩,
  ⟨Off.lnkFlog, 1, 4, 0, 0, 0, 0x801fffff, 0, 0⟩,
  ⟨Off.lnkDisc, 1, 4, 0, 0, 0, 0, 0x3ffff, 0⟩,
  ⟨Off.lnkBisect, 1, 4, 0, 0, 0, 0, 0xff, 0⟩]

/-- The registers of a cru page, offsets from 0x040 (R311). -/
def regsCru : List RegDesc := [
  ⟨Off.cruGroup, 1, 4, 0xffff, 0, 0, 0, 0, 0⟩,
  ⟨Off.cruCfg, 1, 4, 0x1fff, 0, 0, 0, 0, 0xc8⟩,
  ⟨Off.cruAflags, 1, 4, 0, 0x3, 0, 0, 0, 0⟩,
  ⟨Off.cruSeq, 1, 4, 0, 0, 0, 0, 0xFFFFFFFF, 0⟩,
  ⟨Off.cruSlots, 1, 4, 0, 0, 0, 0, 0x3fff, 0⟩,
  ⟨Off.cruAdds, 1, 4, 0, 0, 0, 0xFFFFFFFF, 0, 0⟩,
  ⟨Off.cruThin, 1, 4, 0, 0, 0, 0xFFFFFFFF, 0, 0⟩,
  ⟨Off.cruFault, 1, 4, 0, 0, 0, 0x8000ffff, 0, 0⟩,
  ⟨Off.cruFaultSeq, 1, 4, 0, 0, 0, 0xFFFFFFFF, 0, 0⟩]

/-- The registers of a mlt page, offsets from 0x040 (R330). -/
def regsMlt : List RegDesc := [
  ⟨Off.mltBoot, 1, 4, 0x3ffff, 0, 0, 0, 0, 0⟩,
  ⟨Off.mltCfg, 1, 4, 0x3, 0, 0, 0, 0, 0⟩,
  ⟨Off.mltLtab, 1, 4, 0x1fffff, 0, 0, 0, 0, 0⟩,
  ⟨Off.mltLnum, 1, 4, 0x1fff, 0, 0, 0, 0, 0⟩,
  ⟨Off.mltResume, 1, 4, 0, 0, 0x7, 0, 0, 0⟩,
  ⟨Off.mltRpc, 1, 4, 0x1ffff, 0, 0, 0, 0, 0⟩,
  ⟨Off.mltPstat, 1, 4, 0, 0, 0, 0, 0xFFFFFFFF, 0⟩,
  ⟨Off.mltExc, 1, 4, 0, 0, 0, 0, 0x7fffff, 0⟩,
  ⟨Off.mltExcPc, 1, 4, 0, 0, 0, 0, 0x3ffff, 0⟩,
  ⟨Off.mltExcVal, 1, 4, 0, 0, 0, 0, 0xFFFFFFFF, 0⟩,
  ⟨Off.mltExcClr, 1, 4, 0, 0, 0x1, 0, 0, 0⟩,
  ⟨Off.mltLsel, 1, 4, 0, 0, 0, 0, 0x80001fff, 0⟩,
  ⟨Off.mltAflags, 1, 4, 0, 0x7, 0, 0, 0, 0⟩,
  ⟨Off.mltGdrop, 1, 4, 0, 0, 0, 0xFFFFFFFF, 0, 0⟩,
  ⟨Off.mltChunk, 1, 4, 0, 0, 0, 0xFFFFFFFF, 0, 0⟩,
  ⟨Off.mltElem, 1, 4, 0, 0, 0, 0xFFFFFFFF, 0, 0⟩]

/-- The registers of a spc page, offsets from 0x040 (R331). -/
def regsSpc : List RegDesc := [
  ⟨Off.spcCfg, 1, 4, 0xffff, 0, 0, 0, 0, 0⟩,
  ⟨Off.spcTstat, 1, 4, 0, 0, 0, 0, 0xffff033f, 0⟩,
  ⟨Off.spcHeld, 1, 4, 0, 0, 0, 0, 0x7ffff, 0⟩,
  ⟨Off.spcStall, 1, 4, 0, 0, 0, 0xFFFFFFFF, 0, 0⟩,
  ⟨Off.spcDropw, 1, 4, 0, 0, 0, 0xFFFFFFFF, 0, 0⟩,
  ⟨Off.spcCommit, 1, 4, 0, 0, 0, 0xFFFFFFFF, 0, 0⟩,
  ⟨Off.spcDisc, 1, 4, 0, 0, 0, 0xFFFFFFFF, 0, 0⟩,
  ⟨Off.spcTlog, 1, 4, 0, 0, 0, 0x8000ffff, 0, 0⟩,
  ⟨Off.spcShd, 6, 4, 0, 0, 0, 0, 0x1fff, 0⟩]

/-- The registers of a wbgGlobal page, offsets from 0x040 (R354). -/
def regsWbgGlobal : List RegDesc := [
  ⟨Off.wbgTimeLo, 1, 4, 0, 0, 0, 0, 0xFFFFFFFF, 0⟩,
  ⟨Off.wbgTimeHi, 1, 4, 0, 0, 0, 0, 0xFFFFFFFF, 0⟩,
  ⟨Off.wbgIrqsum, 1, 4, 0, 0, 0, 0, 0x7fffff, 0⟩,
  ⟨Off.wbgIrqrearm, 1, 4, 0, 0, 0x7fffff, 0, 0, 0⟩,
  ⟨Off.wbgIrqpend, 184, 4, 0, 0, 0, 0, 0xFFFFFFFF, 0⟩]

/-- The registers of a wbgPcie page, offsets from 0x040 (R355). -/
def regsWbgPcie : List RegDesc := [
  ⟨Off.wbgLink, 1, 4, 0, 0, 0, 0, 0x103ff, 0⟩,
  ⟨Off.wbgAerCe, 1, 4, 0, 0, 0, 0xFFFFFFFF, 0, 0⟩,
  ⟨Off.wbgAerUe, 1, 4, 0, 0, 0, 0xFFFFFFFF, 0, 0⟩,
  ⟨Off.wbgEcrc, 1, 4, 0, 0, 0, 0xFFFFFFFF, 0, 0⟩,
  ⟨Off.wbgRdpend, 1, 4, 0, 0, 0, 0, 0x3ff, 0⟩,
  ⟨Off.wbgHosterr, 1, 4, 0, 0, 0, 0x807fffff, 0, 0⟩]

/-- The registers of a wbgDrain page, offsets from 0x040 (R356). -/
def regsWbgDrain : List RegDesc := [
  ⟨Off.wbgDrain, 1, 4, 0, 0, 0x1, 0, 0, 0⟩,
  ⟨Off.wbgDrstat, 1, 4, 0, 0, 0, 0, 0x1, 0⟩,
  ⟨Off.wbgDwlog, 1, 4, 0, 0, 0, 0x800fffff, 0, 0⟩,
  ⟨Off.wbgDwaddr, 1, 4, 0, 0, 0, 0x3ffffff, 0, 0⟩,
  ⟨Off.wbgDwcnt, 1, 4, 0, 0, 0, 0xFFFFFFFF, 0, 0⟩]

/-- The registers of a cmdEngine page, offsets from 0x040 (R357). -/
def regsCmdEngine : List RegDesc := [
  ⟨Off.cmdCfg, 1, 4, 0x3ff, 0, 0, 0, 0, 0x200⟩,
  ⟨Off.cmdInfl, 1, 4, 0, 0, 0, 0, 0x3ff, 0⟩,
  ⟨Off.cmdStage, 1, 4, 0, 0, 0, 0, 0x3f, 0⟩,
  ⟨Off.cmdHalt, 3, 4, 0, 0, 0, 0, 0xFFFFFFFF, 0⟩]

/-- The registers of a ring page, offsets from 0x040 (R358). -/
def regsRing : List RegDesc := [
  ⟨Off.cmdSqbaseLo, 1, 4, 0xFFFFFFFF, 0, 0, 0, 0, 0⟩,
  ⟨Off.cmdSqbaseHi, 1, 4, 0xFFFFFFFF, 0, 0, 0, 0, 0⟩,
  ⟨Off.cmdSqcfg, 1, 4, 0xff1f, 0, 0, 0, 0, 0x100⟩,
  ⟨Off.cmdCqbaseLo, 1, 4, 0xFFFFFFFF, 0, 0, 0, 0, 0⟩,
  ⟨Off.cmdCqbaseHi, 1, 4, 0xFFFFFFFF, 0, 0, 0, 0, 0⟩,
  ⟨Off.cmdCqcfg, 1, 4, 0x7f1f, 0, 0, 0, 0, 0⟩,
  ⟨Off.cmdCqirq, 1, 4, 0xffffff, 0, 0, 0, 0, 0⟩,
  ⟨Off.cmdWbLo, 1, 4, 0xFFFFFFFF, 0, 0, 0, 0, 0⟩,
  ⟨Off.cmdWbHi, 1, 4, 0xFFFFFFFF, 0, 0, 0, 0, 0⟩,
  ⟨Off.cmdTout, 1, 4, 0xffff, 0, 0, 0, 0, 0⟩,
  ⟨Off.cmdSqtail, 1, 4, 0, 0, 0, 0, 0xFFFFFFFF, 0⟩,
  ⟨Off.cmdSqhead, 1, 4, 0, 0, 0, 0, 0xFFFFFFFF, 0⟩,
  ⟨Off.cmdCqtail, 1, 4, 0, 0, 0, 0, 0xFFFFFFFF, 0⟩,
  ⟨Off.cmdCqhead, 1, 4, 0, 0, 0, 0, 0xFFFFFFFF, 0⟩,
  ⟨Off.cmdNctrLo, 1, 4, 0, 0, 0, 0, 0xFFFFFFFF, 0⟩,
  ⟨Off.cmdNctrHi, 1, 4, 0, 0, 0, 0, 0xFFFFFFFF, 0⟩,
  ⟨Off.cmdRinfl, 1, 4, 0, 0, 0, 0, 0x7f, 0⟩,
  ⟨Off.cmdDone, 1, 4, 0, 0, 0, 0xFFFFFFFF, 0, 0⟩,
  ⟨Off.cmdErr, 1, 4, 0, 0, 0, 0x8000ffff, 0, 0⟩]

/-- The registers of a cmb page, offsets from 0x040 (R381). -/
def regsCmb : List RegDesc := [
  ⟨Off.wbgCmbOp, 1, 4, 0x7ff, 0, 0, 0, 0, 0⟩,
  ⟨Off.wbgCmbArg0, 1, 4, 0xFFFFFFFF, 0, 0, 0, 0, 0⟩,
  ⟨Off.wbgCmbArg1, 1, 4, 0xFFFFFFFF, 0, 0, 0, 0, 0⟩,
  ⟨Off.wbgCmbNkey, 16, 4, 0xFFFFFFFF, 0, 0, 0, 0, 0⟩,
  ⟨Off.wbgCmbSkey, 16, 4, 0xFFFFFFFF, 0, 0, 0, 0, 0⟩,
  ⟨Off.wbgCmbSig, 16, 4, 0xFFFFFFFF, 0, 0, 0, 0, 0⟩,
  ⟨Off.wbgCmbGo, 1, 4, 0, 0, 0x1, 0, 0, 0⟩]

/-- The registers of a carGlobal page, offsets from 0x040 (R382). -/
def regsCarGlobal : List RegDesc := [
  ⟨Off.carMbstat, 1, 4, 0, 0, 0, 0, 0xc0ffffff, 0⟩,
  ⟨Off.carErr, 1, 4, 0, 0, 0, 0x8000ffff, 0, 0⟩,
  ⟨Off.carOps, 1, 4, 0, 0, 0, 0xFFFFFFFF, 0, 0⟩]

/-- The registers of a carLog page, offsets from 0x040 (R383). -/
def regsCarLog : List RegDesc := [
  ⟨Off.carMcnt, 1, 4, 0, 0, 0, 0, 0x8000001f, 0⟩,
  ⟨Off.carMeas, 8, 4, 0, 0, 0, 0, 0xFFFFFFFF, 0⟩,
  ⟨Off.carMlog, 256, 4, 0, 0, 0, 0, 0xFFFFFFFF, 0⟩]

/-- The registers of a carId page, offsets from 0x040 (R384). -/
def regsCarId : List RegDesc := [
  ⟨Off.carSerial, 4, 4, 0, 0, 0, 0, 0xFFFFFFFF, 0⟩,
  ⟨Off.carDikpub, 16, 4, 0, 0, 0, 0, 0xFFFFFFFF, 0⟩,
  ⟨Off.carEndorse, 16, 4, 0, 0, 0, 0, 0xFFFFFFFF, 0⟩,
  ⟨Off.carQuotes, 1, 4, 0, 0, 0, 0xFFFFFFFF, 0, 0⟩]

/-- The registers of a carKeyx page, offsets from 0x040 (R385). -/
def regsCarKeyx : List RegDesc := [
  ⟨Off.carSess0, 1, 4, 0, 0, 0, 0, 0xFFFFFFFF, 0⟩,
  ⟨Off.carSess1, 1, 4, 0, 0, 0, 0, 0xFFFFFFFF, 0⟩,
  ⟨Off.carKeyxn, 1, 4, 0, 0, 0, 0xFFFFFFFF, 0, 0⟩]

/-- The registers of a carCtx page, offsets from 0x040 (R386). -/
def regsCarCtx : List RegDesc := [
  ⟨Off.carCstate, 9, 4, 0, 0, 0, 0, 0xFFFFFFFF, 0⟩,
  ⟨Off.carBown, 4, 4, 0, 0, 0, 0, 0xFFFFFFFF, 0⟩,
  ⟨Off.carCtxcmd, 1, 4, 0, 0, 0, 0xFFFFFFFF, 0, 0⟩]

/-- The registers of a carExport page, offsets from 0x040 (R387). -/
def regsCarExport : List RegDesc := [
  ⟨Off.carExpn, 1, 4, 0, 0, 0, 0xFFFFFFFF, 0, 0⟩,
  ⟨Off.carExpb, 1, 4, 0, 0, 0, 0xFFFFFFFF, 0, 0⟩,
  ⟨Off.carExpplain, 1, 4, 0, 0, 0, 0xFFFFFFFF, 0, 0⟩]

/-- The registers of a fusStat page, offsets from 0x040 (R388). -/
def regsFusStat : List RegDesc := [
  ⟨Off.fusSvn, 1, 4, 0, 0, 0, 0, 0xff, 0⟩,
  ⟨Off.fusOwn, 1, 4, 0, 0, 0, 0, 0xffff, 0⟩,
  ⟨Off.fusRet, 1, 4, 0, 0, 0, 0, 0xffff, 0⟩,
  ⟨Off.fusRetpend, 1, 4, 0, 0, 0, 0, 0xffff, 0⟩,
  ⟨Off.fusLock, 1, 4, 0, 0, 0, 0, 0x3, 0⟩,
  ⟨Off.fusLogn, 1, 4, 0, 0, 0, 0, 0x1ff01ff, 0⟩,
  ⟨Off.fusOwnh, 64, 4, 0, 0, 0, 0, 0xFFFFFFFF, 0⟩]

/-- The registers of a fusLog page, offsets from 0x040 (R388). -/
def regsFusLog : List RegDesc := [
  ⟨Off.fusLogLo, 256, 8, 0, 0, 0, 0, 0xFFFFFFFF, 0⟩,
  ⟨Off.fusLogHi, 256, 8, 0, 0, 0, 0, 0xFFFFFFFF, 0⟩]

/-- The registers of a wbgBoot page, offsets from 0x040 (R405). -/
def regsWbgBoot : List RegDesc := [
  ⟨Off.wbgBstat, 1, 4, 0, 0, 0, 0, 0x1, 0⟩,
  ⟨Off.wbgBcode, 1, 4, 0, 0, 0, 0, 0xFFFFFFFF, 0⟩,
  ⟨Off.wbgAbsent, 1, 4, 0, 0, 0, 0, 0xffff, 0⟩,
  ⟨Off.wbgBtries, 1, 4, 0, 0, 0, 0, 0xFFFFFFFF, 0⟩,
  ⟨Off.wbgBstage, 9, 4, 0, 0, 0, 0, 0xFFFFFFFF, 0⟩]

/-- The registers of a smb page, offsets from 0x040 (R408). -/
def regsSmb : List RegDesc := [
  ⟨Off.wbgSmbOp, 1, 4, 0xff, 0, 0, 0, 0, 0⟩,
  ⟨Off.wbgSmbArg0, 1, 4, 0xFFFFFFFF, 0, 0, 0, 0, 0⟩,
  ⟨Off.wbgSmbArg1, 1, 4, 0xFFFFFFFF, 0, 0, 0, 0, 0⟩,
  ⟨Off.wbgSmbGo, 1, 4, 0, 0, 0x1, 0, 0, 0⟩]

/-- The registers of a safGlobal page, offsets from 0x040 (R427). -/
def regsSafGlobal : List RegDesc := [
  ⟨Off.safTimeLo, 1, 4, 0, 0, 0, 0, 0xFFFFFFFF, 0⟩,
  ⟨Off.safTimeHi, 1, 4, 0, 0, 0, 0, 0xFFFFFFFF, 0⟩,
  ⟨Off.safPolsvn, 1, 4, 0, 0, 0, 0, 0xFFFFFFFF, 0⟩]

/-- The registers of a cpv page, offsets from 0x040 (R430). -/
def regsCpv : List RegDesc := [
  ⟨Off.cpvDom, 1, 4, 0, 0, 0, 0, 0x3, 0⟩,
  ⟨Off.cpvFreq, 1, 4, 0, 0, 0, 0, 0x7ff07ff, 0⟩,
  ⟨Off.cpvCause, 1, 4, 0, 0, 0, 0, 0x1f, 0⟩,
  ⟨Off.cpvTemp, 1, 4, 0, 0, 0, 0, 0xff, 0⟩,
  ⟨Off.cpvBrakes, 1, 4, 0, 0, 0, 0xFFFFFFFF, 0, 0⟩]

/-- The registers of a safMailbox page, offsets from 0x040 (R428). -/
def regsSafMailbox : List RegDesc := [
  ⟨Off.safMbstat, 1, 4, 0, 0, 0, 0, 0xc0ffffff, 0⟩,
  ⟨Off.safMbres, 1, 4, 0, 0, 0, 0, 0xFFFFFFFF, 0⟩]

/-- The registers of a safDomain page, offsets from 0x040 (R428). -/
def regsSafDomain : List RegDesc := [
  ⟨Off.safDomon0, 1, 4, 0, 0, 0, 0, 0xFFFFFFFF, 0⟩,
  ⟨Off.safDomon1, 1, 4, 0, 0, 0, 0, 0xffff, 0⟩,
  ⟨Off.safDombusy, 1, 4, 0, 0, 0, 0, 0x8000003f, 0⟩]

/-- The registers of a safCurrent page, offsets from 0x040 (R428). -/
def regsSafCurrent : List RegDesc := [
  ⟨Off.safVin, 1, 4, 0, 0, 0, 0, 0xffff, 0⟩,
  ⟨Off.safIin, 1, 4, 0, 0, 0, 0, 0xffff, 0⟩,
  ⟨Off.safIpeak, 1, 4, 0, 0, 0, 0xffff, 0, 0⟩,
  ⟨Off.safIlim, 1, 4, 0, 0, 0, 0, 0xFFFFFFFF, 0xfa00e10⟩,
  ⟨Off.safIstep, 1, 4, 0, 0, 0, 0xFFFFFFFF, 0, 0⟩]

/-- The registers of a safThermal page, offsets from 0x040 (R428). -/
def regsSafThermal : List RegDesc := [
  ⟨Off.safTmax, 1, 4, 0, 0, 0, 0, 0x1f03ff, 0⟩,
  ⟨Off.safTlim0, 3, 4, 0, 0, 0, 0, 0xffffff, 0⟩,
  ⟨Off.safTstep, 1, 4, 0, 0, 0, 0xFFFFFFFF, 0, 0⟩]

/-- The registers of a safWatchdog page, offsets from 0x040 (R428). -/
def regsSafWatchdog : List RegDesc := [
  ⟨Off.safWdcfg, 1, 4, 0, 0, 0, 0, 0x83ffffff, 0x1000000⟩,
  ⟨Off.safWdrem, 1, 4, 0, 0, 0, 0, 0xffffff, 0⟩,
  ⟨Off.safWdexp, 1, 4, 0, 0, 0, 0xFFFFFFFF, 0, 0⟩]

/-- The registers of a safClock page, offsets from 0x040 (R428). -/
def regsSafClock : List RegDesc := [
  ⟨Off.safFceil, 4, 4, 0, 0, 0, 0, 0xFFFFFFFF, 0x12121212⟩,
  ⟨Off.safFcur, 4, 4, 0, 0, 0, 0, 0xFFFFFFFF, 0⟩,
  ⟨Off.safSpread, 1, 4, 0, 0, 0, 0, 0x7, 0x3⟩,
  ⟨Off.safPlllost, 1, 4, 0, 0, 0, 0xffff, 0, 0⟩]

/-- The registers of a safReset page, offsets from 0x040 (R428). -/
def regsSafReset : List RegDesc := [
  ⟨Off.safRcause, 1, 4, 0, 0, 0, 0, 0x7, 0⟩,
  ⟨Off.safRcnt, 1, 4, 0, 0, 0, 0, 0xFFFFFFFF, 0⟩,
  ⟨Off.safBreset, 1, 4, 0, 0, 0, 0xffff, 0, 0⟩]

/-- The registers of a safLog page, offsets from 0x040 (R429). -/
def regsSafLog : List RegDesc := [
  ⟨Off.safFlogn, 1, 4, 0, 0, 0, 0, 0xffff003f, 0⟩,
  ⟨Off.safFlog, 256, 4, 0, 0, 0, 0, 0xFFFFFFFF, 0⟩]

/-- The registers of a msix page, offsets from 0x040 (R21). -/
def regsMsix : List RegDesc := [
  ⟨Off.msixTable, 512, 4, 0xFFFFFFFF, 0, 0, 0, 0, 0⟩]

/-- The registers of a pba page, offsets from 0x040 (R21). -/
def regsPba : List RegDesc := [
  ⟨Off.msixPba, 4, 4, 0, 0, 0, 0, 0xFFFFFFFF, 0⟩]

/-- The block registers of each kind of page. -/
def pageRegs : PageKind → List RegDesc
  | .fcc => regsFcc
  | .ben => regsBen
  | .slb => regsSlb
  | .chu => regsChu
  | .vec => regsVec
  | .wev => regsWev
  | .siv => regsSiv
  | .hlr => regsHlr
  | .xlt => regsXlt
  | .gal => regsGal
  | .hbm => regsHbm
  | .stk => regsStk
  | .stkCtl => regsStkCtl
  | .lnk => regsLnk
  | .cru => regsCru
  | .mlt => regsMlt
  | .spc => regsSpc
  | .wbgGlobal => regsWbgGlobal
  | .wbgPcie => regsWbgPcie
  | .wbgDrain => regsWbgDrain
  | .cmdEngine => regsCmdEngine
  | .ring => regsRing
  | .cmb => regsCmb
  | .carGlobal => regsCarGlobal
  | .carLog => regsCarLog
  | .carId => regsCarId
  | .carKeyx => regsCarKeyx
  | .carCtx => regsCarCtx
  | .carExport => regsCarExport
  | .fusStat => regsFusStat
  | .fusLog => regsFusLog
  | .wbgBoot => regsWbgBoot
  | .smb => regsSmb
  | .safGlobal => regsSafGlobal
  | .cpv => regsCpv
  | .safMailbox => regsSafMailbox
  | .safDomain => regsSafDomain
  | .safCurrent => regsSafCurrent
  | .safThermal => regsSafThermal
  | .safWatchdog => regsSafWatchdog
  | .safClock => regsSafClock
  | .safReset => regsSafReset
  | .safLog => regsSafLog
  | .msix => regsMsix
  | .pba => regsPba

/-- The RW bits of CTL.BLK (R22, and the table of each page). -/
def ctlBlkMask : PageKind → Nat
  | .fcc => 0x30000
  | .ring => 0x10000
  | _ => 0

/-- The defined bits of STAT.BLK. -/
def statBlkMask : PageKind → Nat
  | .fcc => 0xf0000
  | .slb => 0x3f0000
  | .chu => 0x30000
  | .vec => 0x70000
  | .wev => 0x10000
  | .siv => 0xf0000
  | .hlr => 0x70000
  | .xlt => 0x10000
  | .gal => 0xf0000
  | .hbm => 0x70000
  | .stkCtl => 0x70000
  | .lnk => 0x1f0000
  | .cru => 0xf0000
  | .mlt => 0x1f0000
  | .spc => 0x70000
  | .ring => 0x10000
  | .carGlobal => 0x70000
  | .wbgBoot => 0xff0000
  | .safGlobal => 0x1f0000
  | _ => 0

/-- The reset value of STAT (R96, R330: PARKED reads 1). -/
def statReset : PageKind → Nat
  | .fcc => 0x10000
  | .mlt => 0x10000
  | _ => 0

/-- The defined bits of IRQ_STAT.BLK. -/
def irqBlkMask : PageKind → Nat
  | .fcc => 0xf0000
  | .ben => 0x70000
  | .slb => 0x30000
  | .vec => 0x10000
  | .siv => 0x10000
  | .hlr => 0x10000
  | .xlt => 0x10000
  | .gal => 0x30000
  | .hbm => 0x30000
  | .stkCtl => 0x30000
  | .lnk => 0x1f0000
  | .cru => 0x30000
  | .mlt => 0x70000
  | .spc => 0x70000
  | .ring => 0x10000
  | .carGlobal => 0x30000
  | .wbgBoot => 0x30000
  | .safGlobal => 0xf0000
  | _ => 0

/-- The header registers of every page but the MSI-X pages (R22); ID, VER and OWNER are computed where they are reset. -/
def headerRegs (k : PageKind) : List RegDesc := [
  ⟨0x000, 1, 4, 0, 0, 0, 0, 0xFFFFFFFF, 0⟩,
  ⟨0x004, 1, 4, 0, 0, 0, 0, 0xFFFF, 0x0101⟩,
  ⟨0x008, 1, 4, 0xD + ctlBlkMask k, 0, 2, 0, 0, 0⟩,
  ⟨0x00C, 1, 4, 0, 0, 0, 0, 0x1F + statBlkMask k, statReset k⟩,
  ⟨0x010, 1, 4, 0, 0, 0, 0, 0xFFFFFFFF, 0⟩,
  ⟨0x014, 1, 4, 0, 0x7 + irqBlkMask k, 0, 0, 0, 0⟩,
  ⟨0x018, 1, 4, 0xFFFFFFFF, 0, 0, 0, 0, 0⟩,
  ⟨0x01C, 1, 4, 0, 0, 0xFFFFFFFF, 0, 0, 0⟩,
  ⟨0x020, 1, 4, 0, 0, 0, 0, 3, 0⟩,
  ⟨0x024, 1, 4, 0, 0, 0, 0, 0xFFFFFFFF, 0⟩]

/-- Offset of ID (R22). -/
abbrev Off.id : Nat := 0x000
/-- Offset of VER (R22). -/
abbrev Off.ver : Nat := 0x004
/-- Offset of CTL (R22). -/
abbrev Off.ctl : Nat := 0x008
/-- Offset of STAT (R22). -/
abbrev Off.stat : Nat := 0x00C
/-- Offset of REFUSE (R22). -/
abbrev Off.refuse : Nat := 0x010
/-- Offset of IRQ_STAT (R22). -/
abbrev Off.irqStat : Nat := 0x014
/-- Offset of IRQ_EN (R22). -/
abbrev Off.irqEn : Nat := 0x018
/-- Offset of IRQ_SET (R22). -/
abbrev Off.irqSet : Nat := 0x01C
/-- Offset of OWNER (R22). -/
abbrev Off.owner : Nat := 0x020
/-- Offset of GEN (R22). -/
abbrev Off.gen : Nat := 0x024

/-- The kind of page `p` of die `d`, where the page map lists one (R15, R19, R20). -/
def pageKind (d p : Nat) : Option PageKind :=
  if d < 16 then
    if p = 0x00 then some .ben
    else if 0x10 ≤ p && p ≤ 0x15 then some .fcc
    else if 0x20 ≤ p && p ≤ 0x37 then some .slb
    else if 0x40 ≤ p && p ≤ 0x45 then some .chu
    else if 0x48 ≤ p && p ≤ 0x4D then some .vec
    else if 0x50 ≤ p && p ≤ 0x55 then some .wev
    else if 0x58 ≤ p && p ≤ 0x5D then some .siv
    else if 0x60 ≤ p && p ≤ 0x66 then some .hlr
    else if p = 0x70 then some .gal
    else if p = 0x74 || p = 0x75 then some .hbm
    else if p = 0x78 then some .xlt
    else if 0x80 ≤ p && p ≤ 0x84 then some .lnk
    else if p = 0x88 then some .cru
    else if p = 0x90 then some .mlt
    else if p = 0x98 then some .spc
    else if p = 0xF0 then some .cpv
    else none
  else if d < 20 then
    if p = 0x00 then some .stk
    else if 0x10 ≤ p && p ≤ 0x13 then some .stkCtl
    else if 0x80 ≤ p && p ≤ 0x83 then some .lnk
    else if p = 0xF0 then some .cpv
    else none
  else if d = 20 then
    if p = 0x00 then some .wbgGlobal
    else if p = 0x01 then some .wbgPcie
    else if p = 0x02 then some .wbgDrain
    else if p = 0x08 then some .wbgBoot
    else if p = 0x10 then some .cmdEngine
    else if 0x20 ≤ p && p ≤ 0x60 then some .ring
    else if p = 0x70 then some .smb
    else if p = 0x71 then some .cmb
    else if 0x80 ≤ p && p ≤ 0x83 then some .lnk
    else if p = 0xC0 then some .msix
    else if p = 0xC1 then some .pba
    else if p = 0xF0 then some .cpv
    else none
  else if d = 21 then
    if p = 0x00 then some .carGlobal
    else if p = 0x08 then some .carLog
    else if p = 0x10 then some .carId
    else if p = 0x18 then some .carKeyx
    else if p = 0x20 then some .carCtx
    else if p = 0x28 then some .carExport
    else if p = 0xE0 then some .fusStat
    else if p = 0xE1 then some .fusLog
    else none
  else if d = 22 then
    if p = 0x00 then some .safGlobal
    else if p = 0x08 then some .safMailbox
    else if p = 0x10 then some .safDomain
    else if p = 0x18 then some .safCurrent
    else if p = 0x20 then some .safThermal
    else if p = 0x28 then some .safWatchdog
    else if p = 0x30 then some .safClock
    else if p = 0x38 then some .safReset
    else if p = 0x40 then some .safLog
    else none
  else none

/-- ID.TYPE and ID.INST of a page (R23). -/
def pageIdent (d p : Nat) : Nat × Nat :=
  match pageKind d p with
  | some .ben => (0x0001, 0)
  | some .fcc => (0x0002, p - 0x10)
  | some .slb => (0x0003, p - 0x20)
  | some .chu => (0x0004, p - 0x40)
  | some .vec => (0x0005, p - 0x48)
  | some .wev => (0x0006, p - 0x50)
  | some .siv => (0x0007, p - 0x58)
  | some .hlr => if p = 0x66 then (0x0009, 0) else (0x0008, p - 0x60)
  | some .gal => (0x000A, 0)
  | some .hbm => (0x000B, p - 0x74)
  | some .xlt => (0x000C, 0)
  | some .lnk => (0x000D, p - 0x80)
  | some .cru => (0x000E, 0)
  | some .mlt => (0x000F, 0)
  | some .spc => (0x0010, 0)
  | some .cpv => (0x0011, 0)
  | some .stk => (0x0020, 0)
  | some .stkCtl => (0x0021, p - 0x10)
  | some .wbgGlobal | some .wbgPcie | some .wbgDrain | some .wbgBoot | some .smb | some .cmb => (0x0030, p)
  | some .cmdEngine => (0x0034, 0)
  | some .ring => (0x0035, p - 0x20)
  | some .carGlobal | some .carLog | some .carId | some .carKeyx | some .carCtx | some .carExport => (0x0040, p)
  | some .fusStat | some .fusLog => (0x0041, p)
  | some .safGlobal | some .safMailbox | some .safDomain | some .safCurrent | some .safThermal | some .safWatchdog
  | some .safClock | some .safReset | some .safLog => (0x0050, p)
  | some .msix | some .pba | none => (0, 0)

/-- The owner of a page (R19, R20) while its Bench belongs to the operator context: 0 HOST, 1 FW, 2 CARAPACE, 3 SAFETY. -/
def pageOwner (d p : Nat) : Nat :=
  match pageKind d p with
  | some .ben | some .hbm | some .xlt | some .lnk | some .cru | some .stk | some .stkCtl | some .wbgBoot => 1
  | some .carGlobal | some .carLog | some .carId | some .carKeyx | some .carCtx | some .carExport | some .fusStat
  | some .fusLog => 2
  | some .cpv | some .safGlobal | some .safMailbox | some .safDomain | some .safCurrent | some .safThermal
  | some .safWatchdog | some .safClock | some .safReset | some .safLog => 3
  | _ => 0

/-- The pages whose owner follows the context of their Bench (R19). -/
def contextDependent (d p : Nat) : Bool :=
  match pageKind d p with
  | some .fcc | some .slb | some .chu | some .vec | some .wev | some .siv | some .hlr | some .gal | some .mlt | some .spc => true
  | _ => false

/-- The BAR0 offset of a register, which is its key in the register store (R16). -/
def regKey (d p o : Nat) : Nat := d * 0x100000 + p * 0x1000 + o

/-- Die, page and offset of a BAR0 offset (R16). -/
def keyDie (k : Nat) : Nat := k / 0x100000
/-- The page of a BAR0 offset. -/
def keyPage (k : Nat) : Nat := k / 0x1000 % 0x100
/-- The offset in its page of a BAR0 offset. -/
def keyOff (k : Nat) : Nat := k % 0x1000

/-- The register at an offset of a kind of page, where its tables define one. -/
def regAt (k : PageKind) (o : Nat) : Option RegDesc :=
  if o < 0x40 && k ≠ .msix && k ≠ .pba then (headerRegs k).find? (·.covers o) else (pageRegs k).find? (·.covers o)

/-- The value of a register after its page's reset (R9, R22, R23): the Reset column, with the computed header fields, the
ring number in CMD_CQCFG.VEC (R358), 128 columns in SLB_GEOM until the fuses say fewer (R133, R136), the built-in thresholds of SAF_TLIM (R410, R428), the reset of CAR_CSTATE (R386) and
the mask bit of each MSI-X vector, which the PCIe specification sets at reset.
PRESUMED: log entry 16. DESIGN CHOICE: log entry 102. -/
def regReset (key : Nat) : Word :=
  let d := keyDie key
  let p := keyPage key
  let o := keyOff key
  match pageKind d p with
  | none => 0
  | some k =>
    match regAt k o with
    | none => 0
    | some r =>
      if k = .msix then w32 (if o % 16 = 12 then 1 else 0)
      else if k = .pba then 0
      else if o = Off.id then w32 ((pageIdent d p).1 * 0x10000 + d * 0x100 + (pageIdent d p).2)
      else if o = Off.owner then w32 (pageOwner d p)
      else if k = .ring && o = Off.cmdCqcfg then w32 ((p - 0x20) * 0x100)
      else if k = .carCtx && o = Off.carCstate then 2
      else if k = .slb && o = Off.slbGeom then 0x8080
      else if k = .safThermal && o = 0x804 then w32 (90 + 95 * 0x100 + 105 * 0x10000)
      else if k = .safThermal && o = 0x808 then w32 (85 + 90 * 0x100 + 100 * 0x10000)
      else if k = .safThermal && o = 0x80C then w32 (95 + 100 * 0x100 + 110 * 0x10000)
      else w32 r.reset

/-- What a write of `v` leaves of an old value, by the access codes (R7, R8): RW bits take `v`, W1C bits written 1 clear,
every other bit stays. -/
def RegDesc.afterWrite (r : RegDesc) (old v : Word) : Word :=
  (old &&& ~~~ (w32 (r.rw + r.w1c))) ||| (v &&& w32 r.rw) ||| (old &&& w32 r.w1c &&& ~~~ v)

end Sys2Proof.Machine
end

