-- ==== Sys2Proof/Machine/Sparse.lean ====
section
/-!
DEFINITION. Every indexed store of the panel (memories, register files, queues by key) is one kind of data: a list of
key and value pairs in a canonical form, with a default for the keys that are not listed. The form: keys strictly
rising, and no entry equal to its default; so equal stores are equal lists.
-/

namespace Sys2Proof.Machine

/-- A sparse store: entries at strictly rising keys. -/
abbrev SMap (α : Type) := List (Nat × α)

/-- The value at key `k`, `d k` where nothing is listed. -/
def smGet {α : Type} (d : Nat → α) : SMap α → Nat → α
  | [], k => d k
  | (j, v) :: m, k => if k = j then v else smGet d m k

/-- The entry at `k` put in or replaced, keys kept rising. -/
def smInsert {α : Type} : SMap α → Nat → α → SMap α
  | [], k, v => [(k, v)]
  | (j, w) :: m, k, v => if k < j then (k, v) :: (j, w) :: m else if k = j then (k, v) :: m else (j, w) :: smInsert m k v

/-- The entry at `k` taken out. -/
def smErase {α : Type} (m : SMap α) (k : Nat) : SMap α := m.filter (fun e => e.1 != k)

/-- Write `v` at `k`: a value equal to the default is not listed. The store is looked at first, so that a proof which meets an
unknown store never computes the default. -/
def smSet {α : Type} [DecidableEq α] (d : Nat → α) (m : SMap α) (k : Nat) (v : α) : SMap α :=
  match m with
  | [] => if v = d k then [] else [(k, v)]
  | e :: l => if v = d k then smErase (e :: l) k else smInsert (e :: l) k v

/-- Every entry whose key satisfies `p` taken out: those keys read as their default again. -/
def smClear {α : Type} (m : SMap α) (p : Nat → Bool) : SMap α := m.filter (fun e => !p e.1)

/-- The keys rise strictly, from above `lo` where one is given. -/
def smRising {α : Type} : Option Nat → SMap α → Bool
  | _, [] => true
  | lo, (k, _) :: m => (match lo with | none => true | some l => decide (l < k)) && smRising (some k) m

/-- The canonical form of a store. -/
def smWf {α : Type} [DecidableEq α] (d : Nat → α) (m : SMap α) : Bool :=
  smRising none m && m.all (fun e => decide (e.2 ≠ d e.1))

/-- Write a list of values at consecutive keys from `k`. -/
def smSetList {α : Type} [DecidableEq α] (d : Nat → α) (m : SMap α) (k : Nat) : List α → SMap α
  | [] => m
  | v :: vs => smSetList d (smSet d m k v) (k + 1) vs

/-- Read `n` values at consecutive keys from `k`. -/
def smGetList {α : Type} (d : Nat → α) (m : SMap α) (k : Nat) : Nat → List α
  | 0 => []
  | n + 1 => smGet d m k :: smGetList d m (k + 1) n

end Sys2Proof.Machine
end

