-- ==== Sys2Proof/Machine/State.lean ====
section
/-!
DEFINITION. The state of the panel, as plain data. Registers have one home, the store `regs`, keyed by their BAR0 offset
(R16); everything that is not a register has a field of its own. Every indexed store is a sparse store (Sparse.lean), so
that equal states are equal data. Cores, units, Slabs and Benches are stores keyed by their number.
-/

namespace Sys2Proof.Machine

/-- Why a step stops with a fault. -/
inductive Fault where
  /-- Raised by `exec` when a command's list operands do not have the length its row fixes (`wellFormed` is false): such a
  command names no event of the panel. Safe. -/
  | malformedCommand
  deriving DecidableEq, Repr

/-- Why a step is refused. -/
inductive Refusal where
  /-- Raised by `exec` for a command that has no meaning yet. Safe. -/
  | notModelled (mnemonic : String)
  deriving DecidableEq, Repr

/-- A register write that the Weighbridge has accepted and forwarded as REGWR (R337), or one that it holds (R33, R34); `applied` once
its block has taken it. -/
structure PageStore where
  agent : Agent
  key : Nat
  data : Word
  tag : Nat
  applied : Bool
  deriving DecidableEq, Repr

/-- The Weighbridge's write path: writes on the way to their blocks, writes held behind a pending check (R34), REGACKs on
the way back, the number of the next write, and the first write number that a running drain does not wait for (R39). -/
structure WritePath where
  forwarded : List PageStore
  held : List PageStore
  acks : List Nat
  nextTag : Nat
  drain : Option Nat
  deriving DecidableEq, Repr

/-- What the panel has written to host memory or sent to the host, oldest first (R336). -/
inductive HostEvent where
  | write (addr : Nat) (data : List Byte)
  | read (addr len : Nat)
  | message (vector addr data : Nat)
  | unsupported (isRead : Bool)
  deriving DecidableEq, Repr

/-- The per-core state of a Face's control core or a Molt strand (R67, R313): registers, predicates, the program counter,
whether it stands on an LSYNC whose WAIT it awaits (R79) and has popped its
token (R104), whether a strand has reached its own PARK, and a strand's access
count to each window since the pass opened (R317). -/
structure Core where
  gpr : SMap DWord
  vreg : SMap Word
  pred : SMap (BitVec 256)
  pc : Nat
  holding : Bool
  popped : Bool
  stopped : Bool
  access : SMap Nat
  deriving DecidableEq, Repr

/-- An entry of a unit queue (R79): the instruction words, its place, the copied general registers, the strand that issued
it (R314; 0 on a Face), and its number among the long forms that its Bench has issued (R293). -/
structure QEntry where
  words : List Word
  bank : Bool
  pc : Nat
  ga : DWord
  gb : DWord
  gc : DWord
  ixr : DWord
  strand : Nat
  stamp : Nat
  deriving DecidableEq, Repr

/-- A tile in the tile queue or on its way into it (R126, R143): 2,048 words in row-major order, the live-row count, the
shape, and whether it is the last of its drain. -/
structure Tile where
  vals : List Word
  live : Nat
  ord : Nat
  last : Bool
  deriving DecidableEq, Repr

/-- A started operation of a unit: its entry, the stores that become visible when it completes, the remote signal it sends,
the Slabs and slots it occupies, the tiles it still has to place, whether it has lost its SIGNAL to an exception, and
whether it has ended and waits for room in its token queue (R106). `tally` counts what its unit's counters gain at its
completion. `src` holds, until the operation's reads count as made, the bytes of its operands as they stood at its start, with a
number for the choices of `Config.lineReadLate` (R128). DEDUCED: log entry 34. -/
structure RunOp where
  entry : QEntry
  writes : List (Nat × List Byte)
  rsig : Option Word
  slabs : List Nat
  lo : Nat
  hi : Nat
  tiles : List Tile
  failed : Bool
  ended : Bool
  tally : List Nat
  src : Option (Nat × List Host.Cell)
  deriving DecidableEq, Repr

/-- A tensor that a Sieve channel is building (R167 to R170): the address of its header, the header as it was read, the
elements held in staging at row × COLS + column, the bytes of its bitmap, row-count table and block data as they stood when
it was opened or last written by the Sieve (R169), the blocks complete so far in the order of their completion, and
whether its last tile has arrived. -/
structure SieveTensor where
  hdr : Nat
  head : List Byte
  elems : SMap Nat
  before : List Byte
  complete : List Nat
  closing : Bool
  deriving DecidableEq, Repr

/-- A bank swap that waits for the incoming bank's writes (R89): the offset at which to continue, the core that continues,
and whether the swap is part of a resume. -/
structure SwapReq where
  pc : Nat
  core : Nat
  resume : Bool
  deriving DecidableEq, Repr

/-- A Face, or as unit 6 the Molt: everything of it that is not a register and not per strand (R67, R90, R131, R143 to
R149). -/
structure Face where
  bank : Bool
  parked : Bool
  cause : Nat
  tag : Nat
  swap : Option SwapReq
  flags : BitVec 32
  ctr : SMap Nat
  tok : SMap Nat
  scr : SMap DWord
  qSlab : List QEntry
  qChute : List QEntry
  qWeevil : List QEntry
  qHauler : List QEntry
  qColl : List QEntry
  qTask : List QEntry
  loads : List RunOp
  streams : List RunOp
  drain : Option RunOp
  chute : List RunOp
  weevil : Option RunOp
  loadTrack : SMap Nat
  lfsr : BitVec 64
  tileQ : List Tile
  popped : Nat
  tilesOut : Nat
  oPos : Nat
  sPos : Nat
  oFull : Nat
  sFull : Nat
  deferred : List Word
  inbox : List Packet
  sieveD : Option SieveTensor
  sieveV : Option SieveTensor
  slotsV : Nat
  waitWindow : Nat
  taskEnded : Option QEntry
  deriving DecidableEq, Repr

/-- A stationary bank (R117, R121, R122): format code, whether a load has completed, tile rows and row groups loaded, the
elements at 512 c + r and the MX scales at 16 c + block. -/
structure Bank where
  fmt : Nat
  valid : Bool
  rows : Nat
  groups : Nat
  elem : SMap Nat
  scale : SMap Nat
  deriving DecidableEq, Repr

/-- A Slab (R117): two banks, the accumulator at 512 c + s, and the live-row count of each slot tile. -/
structure Slab where
  bank0 : Bank
  bank1 : Bank
  acc : SMap Word
  live : SMap Nat
  deriving DecidableEq, Repr

/-- An empty bank. -/
def Bank.empty : Bank := ⟨0, false, 0, 0, [], []⟩

/-- A Slab after reset (R122, R132). DESIGN CHOICE: log entry 3. -/
def Slab.empty : Slab := ⟨.empty, .empty, [], []⟩

/-- A core after Face reset (R67, R95). DESIGN CHOICE: log entry 3. -/
def Core.empty : Core := ⟨[], [], [], 0, false, false, false, []⟩

/-- A Face after reset: parked, empty, rounding state 1 (R55, R90, R95). DESIGN CHOICE: log entry 3. -/
def Face.empty : Face :=
  { bank := false, parked := true, cause := 0, tag := 0, swap := none, flags := 0, ctr := [], tok := [], scr := [],
    qSlab := [], qChute := [], qWeevil := [], qHauler := [], qColl := [], qTask := [], loads := [], streams := [],
    drain := none, chute := [], weevil := none, loadTrack := [], lfsr := 1, tileQ := [], popped := 0, tilesOut := 0,
    oPos := 0, sPos := 0, oFull := 0, sFull := 0, deferred := [], inbox := [], sieveD := none, sieveV := none, slotsV := 0,
    waitWindow := 0, taskEnded := none }

/-- The open speculative task of a Bench (R320 to R328): the issuer, the descriptor's fields, the GUARD and END that have
started and not completed, the value of the guard, whether it is known, whether its exchange stopped with a fault, and the remote
signals held, oldest first, each with the unit that sent it. -/
structure Task where
  owner : Nat
  agents : Nat
  grp : Bool
  gclr : Bool
  gsrc : Nat
  gbit : Nat
  okSig : Word
  badSig : Word
  guard : Option QEntry
  unclean : Bool
  resolved : Bool
  faulted : Bool
  ending : Option QEntry
  sigs : List (Nat × Word)
  deriving DecidableEq, Repr

/-- A line that a Gallery holds (R233 to R235, R241): the place of its first byte, its 128 bytes, whether it is dirty, the
key context it belongs to, and whether it is a prefetched line. -/
structure GLine where
  line : Nat
  data : List Byte
  dirty : Bool
  kctx : Nat
  pf : Bool
  deriving DecidableEq, Repr

/-- One side of a transfer: a place of a store, an instruction bank or a table memory, or a context virtual address. -/
inductive Side where
  | place (l : Nat)
  | virt (va : Nat)
  deriving DecidableEq, Repr

/-- One access of a transfer, in its order (R205, R244, R240). `elem` is the element's position and `addr` the address that a
fault records. The bytes read so far wait in the job's buffer, oldest first. -/
inductive Access where
  /-- Read `n` bytes into the buffer. -/
  | get (s : Side) (n elem : Nat)
  /-- Put constant bytes into the buffer. -/
  | const (bs : List Byte)
  /-- Write bytes composed from the buffer: each is a byte of an entry, or 0. -/
  | build (d : Side) (parts : List (Option (Nat × Nat))) (elem : Nat)
  /-- Add the buffer's first entry, an element of the format, into Gallery scratch (R206, R246). -/
  | add (d : Side) (fmt : Nat) (elem : Nat)
  /-- Take `n` entries off the buffer. -/
  | drop (n : Nat)
  /-- Keep only the low `n` bits of the buffer's last entry (R212). -/
  | trim (n : Nat)
  /-- One element of an atomic batch (R244); with `res` the old value is stored at that place. -/
  | atom (va aop ty opnd cmpv : Nat) (res : Option Nat) (elem : Nat)
  /-- Place one line by prefetch (R240). -/
  | line (va : Nat)
  /-- An index that is out of range (R210): the transfer stops here. -/
  | fail (code elem addr : Nat)
  deriving DecidableEq, Repr

/-- A 64-byte write that waits for its agent's next write, with which it may form one request (R235): place, key context, position
and address for a fault, and the bytes. -/
structure HalfLine where
  place : Nat
  kctx : Nat
  elem : Nat
  addr : Nat
  data : List Byte
  deriving DecidableEq, Repr

/-- A running transfer of a Hauler, an atomic batch or a prefetch: what is still to do, the buffer, the walk or the answer it
waits for, whether the walk began before an invalidation (R219), whether its request is held (R229) or it has ended and waits for room for
its SIGNAL (R106), the slots of its posted writes, a write that may yet be combined with the next (R235), who issued it, and what it
tallies and gives at its end: the bytes written and the accesses made so far (R222), with the 64-byte line of the last access of each
side (R211). `kick` names the standing slot of a kicked run (R220); `marked` is the mark of R242; `into` is the instruction bank that
its destination lies in (R89): 2 × Face + bank. -/
structure Job where
  todo : List Access
  buf : List (List Byte)
  walk : Option (Nat × Bool)
  stale : Bool
  await : Option Nat
  slotHeld : Bool
  posted : List Nat
  half : Option HalfLine
  issuer : Nat
  entry : QEntry
  kick : Option Nat
  rsig : Word
  bytes : Nat
  accesses : Nat
  srcLine : Option Nat
  dstLine : Option Nat
  ended : Bool
  marked : Bool
  into : Option Nat
  deriving DecidableEq, Repr

/-- A slot of a Bench's request table (R229): its number, the job it serves, the bank that it counts on (R231), the place and
length asked for, whether its memory is of tier N or tier C (R232), the access that it carries out, and the element's position
and the address that a fault of it records (R222). -/
structure Slot where
  tag : Nat
  job : Nat
  bank : Nat
  place : Nat
  len : Nat
  tiered : Bool
  write : Bool
  kctx : Nat
  elem : Nat
  addr : Nat
  deriving DecidableEq, Repr

/-- A chunk that a collective hands to the Molt (R296, R318): its LTAG, its first element in the collective, its FP32 values,
and the collective and slot it comes from. -/
structure GChunk where
  ltag : Nat
  first : Nat
  vals : List Word
  seq : Nat
  tree : Nat
  chunk : Nat
  deriving DecidableEq, Repr

/-- A slot of the combining buffer (R301, R302): how many children have been added, whether the own contribution has, and the values so
far. -/
structure CSlot where
  got : Nat
  own : Bool
  vals : List (Option Nat)
  deriving DecidableEq, Repr

/-- A group collective at one member (R292 to R310): its SEQ, issuer, entry and descriptor, the group and mode at its start, the
Bench's rank, the tied buffers, for each tree the member's parent (0 none, else Bench + 1) and its children, the grant received from each
neighbour (key tree × 32 + Bench), the slots freed of each tree (key tree × 2, + 1 for the downward stream), the chunks whose own
contribution has been made and those delivered downward (key tree × 2^32 + chunk), the slots of the combining buffer, those whose
chunk has gone on but is still held (tree, chunk, downward), the flits of chunks that have not arrived whole, chunks that wait for a
child's grant, and for EL7 the slices that wait to land, those landed of each chunk group, and the groups opened. `guard` marks a GUARD's exchange,
whose own value is `own`; `ended` a collective whose SIGNAL waits for room. -/
structure Coll where
  seq : Nat
  unit : Nat
  entry : QEntry
  guard : Bool
  own : Word
  desc : List Byte
  memb : Nat
  el7 : Bool
  rank : Nat
  tied : List Nat
  parent : SMap Nat
  kids : SMap (List Nat)
  win : SMap Nat
  freed : SMap Nat
  upDone : SMap Bool
  downDone : SMap Bool
  cslots : SMap CSlot
  busy : List (Nat × Nat × Bool)
  parts : SMap (List Byte)
  forward : List (Nat × Nat × Nat × List Byte)
  toLand : List (Nat × Nat × List Byte)
  landed : SMap Nat
  opened : Nat
  ended : Bool
  deriving DecidableEq, Repr

/-- The collective engine of a Bench: the active collectives in SEQ order, and packets of collectives not yet started. -/
structure Crusher where
  act : List Coll
  early : List Packet
  deriving DecidableEq, Repr

/-- The Molt beyond its core (R315 to R318): the layer entry of the open pass, the layers whose pass 1 has closed since their
last pass 2, the gradient elements taken, the chunks waiting to be taken, and the elements read through v31 and written
through v30, v26 and v25 since the pass opened. -/
structure Molt where
  entry : List Byte
  pass1 : SMap Bool
  grad : SMap (Option Word)
  chunks : List GChunk
  popped : Nat
  wrote30 : Nat
  wrote26 : Nat
  wrote25 : Nat
  deriving DecidableEq, Repr

/-- A Molt after reset. -/
def Molt.empty : Molt := ⟨[], [], [], [], 0, 0, 0, 0⟩

/-- A Bench: what its shared units hold that is not a register: the core cycle counter, fence and brake, the open task, the
held bytes with the key context of each held line, the Gallery's lines (least recently used first) and the ways to clear
after an enable (R236), the translations held with their entries (R219), the running transfers, the request table, the
Bench Hauler's accepted entries with their Faces (R201), the pending kicks of each Hauler (R220), the Molt, and the
number and mode of an ENTER that it has not answered (R285), the collective engine, and the HBM repair records of each stack as its
reset loaded them from the fuses (R9, R249). -/
structure Bench where
  cycle : Nat
  issued : Nat
  fenced : Bool
  braked : Bool
  task : Option Task
  held : SMap (Option Byte)
  heldKey : SMap Nat
  lines : List GLine
  ways : Nat
  clearing : Bool
  flushing : Bool
  flushInv : Bool
  tlb : List (Nat × Nat × DWord)
  invBusy : Bool
  jobs : SMap (Option Job)
  slots : List Slot
  haulQ : List (Nat × QEntry)
  kicks : SMap Nat
  molt : Molt
  fencing : Option (Nat × Bool)
  cru : Crusher
  hbmRec : SMap (List (Nat × Nat × Nat × Bool))
  deriving DecidableEq, Repr

/-- A Bench after reset. DESIGN CHOICE: log entry 3. -/
def Bench.empty : Bench :=
  { cycle := 0, issued := 0, fenced := false, braked := false, task := none, held := [], heldKey := [], lines := [], ways := 0,
    clearing := false, flushing := false, flushInv := false, tlb := [], invBusy := false, jobs := [], slots := [],
    haulQ := [], kicks := [], molt := .empty, fencing := none, cru := ⟨[], []⟩, hbmRec := [] }

/-- A packet that waits at an output port, and, where it came over a link, the port of its die and the virtual channel whose cells it
holds (R269). -/
structure Queued where
  pkt : Packet
  cell : Option (Nat × Nat)
  deriving DecidableEq, Repr

/-- A frame that its sender keeps until it is acknowledged (R264): its SEQ, its 40 flits, and the packets whose header entries it
holds. -/
structure SentFrame where
  seq : Nat
  flits : List (List Byte)
  starts : List Packet
  deriving DecidableEq, Repr

/-- A fabric port (R260 to R269). Receiving: the next frame number it takes, whether it discards frames until a replay, and has still
to say so, how often the frame has failed, the physical lanes that are good, the symbols corrected on each lane and the frames seen in
the current window, whether it has asked for a lane swap, the packets that have not arrived whole, the cells of its buffer in use and
those freed of each virtual channel since the last frame sent. Sending: the packets waiting, oldest first, the channel served last, the
data flits of packets started and not sent yet, the number of the next frame, the frames not acknowledged, oldest first, the frame
from which they are being resent, and the far end's cells charged to each channel, reserved and shared. -/
structure Port where
  expect : Nat
  naking : Bool
  nakDue : Bool
  fails : Nat
  good : Nat
  laneErr : SMap Nat
  frames : Nat
  swapping : Bool
  parts : List Packet
  cells : Nat
  freed : SMap Nat
  out : List Queued
  turn : Nat
  tail : List (List Byte)
  next : Nat
  replay : List SentFrame
  resend : Option Nat
  reserved : SMap Nat
  shared : SMap Nat
  deriving DecidableEq, Repr

/-- A port that has not been trained. DESIGN CHOICE: log entry 3. -/
def Port.empty : Port :=
  { expect := 0, naking := false, nakDue := false, fails := 0, good := 0, laneErr := [], frames := 0, swapping := false, parts := [],
    cells := 0, freed := [], out := [], turn := 0, tail := [], next := 0, replay := [], resend := none, reserved := [], shared := [] }

/-- The fabric manager's open work (R282, R284, R286): the dies whose RTLOAD is unanswered, and what follows the load: 0 nothing,
1 the fence's step 3, 2 the readmission's step 4. -/
structure FabricMgr where
  loads : List Nat
  after : Nat
  deriving DecidableEq, Repr

/-- The fuse array (R376 to R378): the ratchet bits blown, for each owner slot its state (0 EMPTY, 1 ACTIVE, 2 REVOKED) and its
hash, the retirements programmed, the column bypass records of each Slab (key die × 32 + Slab) and the HBM repair records of
each stack (key die × 2 + stack: channel, lane, spare), each with its valid bit, the two locks, the ordering code (R442), and
the log entries. They keep their values through every reset and loss of power. -/
structure Fuses where
  svn : Nat
  owners : SMap (Nat × List Byte)
  retire : Nat
  colByp : SMap (List (Nat × Bool))
  hbmRep : SMap (List (Nat × Nat × Nat × Bool))
  dbgLock : Bool
  pelock : Bool
  order : Nat
  log : List DWord
  deriving DecidableEq, Repr

/-- What Carapace and the command engine hold for a tenant context (R360, R370, R371, R373): whether a session is agreed, the
session key, TEXP, XHASH, the exports since CREATE, the CREATEs since Carapace reset, and the panel's nonce counter. -/
structure CtxKeys where
  session : Bool
  sessKey : List Byte
  texp : List Byte
  xhash : List Byte
  eseq : Nat
  kgen : Nat
  panelCtr : Nat
  deriving DecidableEq, Repr

/-- A context with no key. -/
def CtxKeys.empty : CtxKeys := ⟨false, [], [], [], 0, 0, 0⟩

/-- A mailbox request as it was copied (R379, R408). -/
structure Mailbox where
  agent : Agent
  op : Nat
  slot : Nat
  arg0 : Nat
  arg1 : Nat
  nkey : List Byte
  skey : List Byte
  sig : List Byte
  deriving DecidableEq, Repr

/-- Carapace beyond its registers (R360 to R379): the keys of each context, the mailbox request pending or running, and whether
its fuse change has begun. -/
structure Carapace where
  ctx : SMap CtxKeys
  mail : Option Mailbox
  fusing : Bool
  deriving DecidableEq, Repr

/-- How a command has ended: STATUS, DIE, CODE, INFO, TS and the completion payload (R347, R351, R352). -/
structure CmdEnd where
  status : Nat
  die : Nat
  code : Nat
  info : Nat
  ts : Nat
  payload : List Byte
  deriving DecidableEq, Repr

/-- A packet that the engine has read (R343): its header, its payload after decryption, and the code of the check it failed
(R348), 0 for none. -/
structure CmdPacket where
  header : List Byte
  payload : List Byte
  code : Nat
  deriving DecidableEq, Repr

/-- A command in flight (R345 to R353): the slot of its ring, its header, the place and the units of its completion, how it has
ended, whether its completion is filled but not yet visible, whether it is being aborted, the Benches on which it has work, the
dies whose TIMESNAP sample is still to be taken and still to return, and the samples taken. -/
structure Cmd where
  slot : Nat
  header : List Byte
  place : Nat
  units : Nat
  ended : Option CmdEnd
  filled : Bool
  aborting : Bool
  work : Nat
  asked : List Nat
  awaited : List Nat
  samples : SMap Nat
  deriving DecidableEq, Repr

/-- A command ring beyond its registers (R341 to R346): what the fetch waits for (0 nothing, 1 the header, 2 units below the tail,
3 the payload), the header and the code found, the packets read and not started, the commands in flight in start order, the CQ
position after the last reserved space, the interrupting completions since the last message, and whether the coalescing
time runs. -/
structure Ring where
  phase : Nat
  header : List Byte
  code : Nat
  ready : List CmdPacket
  run : List Cmd
  reserved : Nat
  irqs : Nat
  timing : Bool
  deriving DecidableEq, Repr

/-- A ring after reset. DESIGN CHOICE: log entry 3. -/
def Ring.empty : Ring := ⟨0, [], 0, [], [], 0, 0, false⟩

/-- The boot ROM's state (R394 to R404): the window's registers, the chunk that each buffer holds (BOOT_CHUNK.LEN64, 0 for
none; A first), the bytes of the bundle accepted, and the boot's progress: whether the PCIe link is up, stage 0, discovery and
memory training have ended and the firmware has started; whether stage 0 waits, and what its two checks find. -/
structure Boot where
  state : Nat
  stage : Nat
  code : Nat
  next : Nat
  tries : Nat
  drop : Nat
  lenA : Nat
  lenB : Nat
  bytes : Nat
  linkUp : Bool
  begun : Bool
  found : Bool
  trained : Bool
  started : Bool
  waiting : Bool
  rom : Bool
  drbg : Bool
  deriving DecidableEq, Repr

/-- The boot state before stage 0. DESIGN CHOICE: log entry 3. -/
def Boot.empty : Boot := ⟨0, 0, 0, 0, 0, 0, 0, 0, 0, false, false, false, false, false, false, true, true⟩

/-- The Safety Partition beyond its registers (R407 to R430): the mailbox request, the domains that are switching and whether on,
whether power-up runs or has ended, the policy body, the last current samples (newest first) and the runs of samples over the
limits, the current ceiling, the thermal ceiling of each Bench, the last reading of each sensor (key die × 16 + sensor), the
Benches whose PLL is out of lock, whether the first watchdog expiry has passed, the brake cap, and the pins PERST_N and
PWR_BRAKE_N (true while asserted) and whether the input is in range. -/
structure Safety where
  mail : Option Mailbox
  switching : List (Nat × Bool)
  powering : Bool
  powered : Bool
  policy : List Byte
  samples : List Nat
  overTrip : Nat
  outRange : Nat
  curCeil : Nat
  thermCeil : SMap Nat
  temps : SMap Nat
  pllOut : Nat
  expired : Bool
  brakeCap : Bool
  perst : Bool
  brake : Bool
  inputOk : Bool
  deriving DecidableEq, Repr

/-- The built-in safety policy (R410). -/
def builtinPolicy : List Byte :=
  leBytes 2 3600 ++ leBytes 2 4000 ++ leBytes 2 3100 ++ leBytes 2 4100 ++ [90, 95, 105, 85, 90, 100, 95, 100, 110, 18, 3, 4]
    ++ leBytes 4 0 ++ [1, 0] ++ leBytes 2 0 ++ leBytes 2 0 ++ leBytes 2 0xFE ++ List.replicate 32 0

/-- The Safety Partition after its reset. DESIGN CHOICE: log entry 3. -/
def Safety.empty : Safety :=
  ⟨none, [], false, false, builtinPolicy, [], 0, 0, 18, [], [], 0, false, false, false, false, false⟩

/-- The sideband and the test port (R442 to R444): the selection, the last SMBus answer (`none` for a NACK), the instruction
register of the TAP, the identification or bypass register that it selects, its boundary-scan register, and what drives the pins: 0
functional, 1 the boundary-scan register, 2 nothing. -/
structure Sideband where
  die : Nat
  page : Nat
  off : Nat
  answer : Option (List Byte)
  ir : BitVec 8
  dr : Word
  cells : List Bool
  drive : Nat
  deriving DecidableEq, Repr

/-- The state of the panel. `pending` is the queue of commands waiting, `fresh` counts the free values drawn so far (both the
model's own); every other field is the panel's. `verdicts` holds what the first cycle of each pending consistency check found
(R31): class, WORD and code, 0, 0, 0 where it passes. `fabric` holds the packets that have reached the die
they name and wait there, oldest first; those on their way stand in the ports. `keyGen` numbers the memory key of each context, `keyTags`
names the key of each stored line, and `arb` counts, for each spur port of a Stockpile (key 4 × die + port), the requests served in
the running round (R252). DEDUCED: log entry 107. -/
structure State where
  pending : List Instr
  fresh : Nat
  regs : SMap Word
  shadow : SMap Word
  path : WritePath
  verdicts : SMap (Nat × Nat × Nat)
  readData : List Byte
  hostOut : List HostEvent
  cores : SMap Core
  faces : SMap Face
  slabs : SMap Slab
  benches : SMap Bench
  mem : List Host.Cell
  keyTags : SMap Nat
  keyGen : SMap Nat
  arb : SMap Nat
  badLines : SMap Bool
  fabric : List Packet
  ports : SMap Port
  dieNum : SMap Nat
  fm : FabricMgr
  msixOn : Bool
  msixFnMask : Bool
  retired : Nat
  fuses : Fuses
  carapace : Carapace
  rings : SMap Ring
  turn : Nat × Nat
  boot : Boot
  safety : Safety
  side : Sideband
  deriving DecidableEq, Repr

/-- The fuses of a part as the factory ships it: an EL1600-A16 whose debug lock is set and logged (R376, R377, R442).
DESIGN CHOICE: log entry 5. -/
def Fuses.shipped : Fuses := ⟨0, [], 0, [], [], true, false, 0x10, [BitVec.ofNat 64 0x48]⟩

/-- The panel right after reset: every register at its Reset column, every store empty, the fuses those of
a shipped part, no command waiting. DESIGN CHOICE: log entries 3, 5. PRESUMED: log entry 15. -/
def State.reset : State :=
  { pending := [], fresh := 0, regs := [], shadow := [], path := ⟨[], [], [], 0, none⟩, verdicts := [], readData := [], hostOut := [],
    cores := [], faces := [], slabs := [], benches := [], mem := [], keyTags := [], keyGen := [], arb := [], badLines := [], fabric := [],
    ports := [], dieNum := [], fm := ⟨[], 0⟩,
    msixOn := false, msixFnMask := false, retired := 0, fuses := .shipped, carapace := ⟨[], none, false⟩, rings := [],
    turn := (1, 0), boot := .empty, safety := .empty,
    side := ⟨0, 0, 0, none, 2, 0x11600A35, List.replicate 416 false, 0⟩ }

end Sys2Proof.Machine
end

