-- ==== Sys2Proof/Machine/Ops.lean ====
section
/-!
DEFINITION. The named operations on the state: registers and their fields, the refusal and interrupt records, host
messages, memory, the speculative overlay, cores, Faces, Slabs and Benches.
-/

namespace Sys2Proof.Machine

/-! ### Registers -/

/-- The register at offset `o` of page `p` of die `d`. -/
def State.reg (s : State) (d p o : Nat) : Word := smGet regReset s.regs (regKey d p o)

/-- The register set. -/
def State.setReg (s : State) (d p o : Nat) (v : Word) : State :=
  { s with regs := smSet regReset s.regs (regKey d p o) v }

/-- A field of a register. -/
def State.rfld (s : State) (d p o lo len : Nat) : Nat := wfld (s.reg d p o) lo len

/-- A field of a register set. -/
def State.setFld (s : State) (d p o lo len v : Nat) : State := s.setReg d p o (wput (s.reg d p o) lo len v)

/-- CTL.EN of a page (R22). -/
def State.en (s : State) (d p : Nat) : Bool := wbit (s.reg d p Off.ctl) 0

/-- CTL.QSC of a page (R22). -/
def State.qsc (s : State) (d p : Nat) : Bool := wbit (s.reg d p Off.ctl) 2

/-- A saturating RC counter advanced (for example R96). -/
def State.bump (s : State) (d p o n : Nat) : State := s.setReg d p o (satAdd (s.reg d p o) n)

/-- A record of the first event since the last read: bit 31 is VALID (for example R115, R184). -/
def State.recordFirst (s : State) (d p o : Nat) (v : Nat) : State :=
  if wbit (s.reg d p o) 31 then s else s.setReg d p o (w32 (0x80000000 + v))

/-! ### Interrupts (R40, R339, R340) -/

/-- The MSI-X mask state of a vector: its mask bit, the function mask, or MSI-X disabled. PRESUMED: log entry 16. -/
def State.vectorMasked (s : State) (v : Nat) : Bool :=
  wbit (s.reg 20 0xC0 (16 * v + 12)) 0 || s.msixFnMask || !s.msixOn

/-- Send a vector's message, or set its pending bit while it is masked (R340). -/
def State.sendVector (s : State) (v : Nat) : State :=
  if s.vectorMasked v then s.setFld 20 0xC1 (4 * (v / 32)) (v % 32) 1 1
  else { s with hostOut := s.hostOut ++ [.message v
    ((s.reg 20 0xC0 (16 * v)).toNat + (s.reg 20 0xC0 (16 * v + 4)).toNat * 2 ^ 32) (s.reg 20 0xC0 (16 * v + 8)).toNat] }

/-- The page interrupts under R40. -/
def State.pageInterrupts (s : State) (d p : Nat) : Bool :=
  s.en d p && (s.reg d p Off.irqStat &&& s.reg d p Off.irqEn) != 0

/-- WBG_IRQPEND of the die and WBG_IRQSUM brought up to date with one page; vector 65 + d goes out when the die's summary
rises (R340). -/
def State.noteIrq (s : State) (d p : Nat) : State :=
  let o := Off.wbgIrqpend + 0x20 * d + 4 * (p / 32)
  let was := wbit (s.reg 20 0 Off.wbgIrqsum) d
  let s := s.setFld 20 0 o (p % 32) 1 (s.pageInterrupts d p).toNat
  let sum := (List.range 8).any (fun w => s.reg 20 0 (Off.wbgIrqpend + 0x20 * d + 4 * w) != 0)
  let s := s.setFld 20 0 Off.wbgIrqsum d 1 sum.toNat
  if sum && !was then s.sendVector (65 + d) else s

/-- The bits that a page's IRQ_STAT has (R7, R22): the others are ignored when they are written. -/
def irqBits (d p : Nat) : Nat := 7 + ((pageKind d p).map irqBlkMask).getD 0

/-- The pages of a die that have a header (R19 to R21). -/
def diePages (d : Nat) : List Nat :=
  (List.range 256).filter (fun p => match pageKind d p with
    | some .msix | some .pba | none => false
    | _ => true)

/-- WBG_IRQPEND and WBG_IRQSUM brought up to date with every page of a die (R340). -/
def State.noteDie (s : State) (d : Nat) : State := (diePages d).foldl (fun s p => s.noteIrq d p) s

/-- Set bits of a page's IRQ_STAT (R22), of those it has (R7). -/
def State.raise (s : State) (d p mask : Nat) : State :=
  (s.setReg d p Off.irqStat (s.reg d p Off.irqStat ||| (w32 mask &&& w32 (irqBits d p)))).noteIrq d p

/-- Set STAT.FLT, and IRQ_STAT.FLT where it rises (R22, R82). DEDUCED: log entry 55. -/
def State.setFlt (s : State) (d p : Nat) : State :=
  if wbit (s.reg d p Off.stat) 2 then s else (s.setFld d p Off.stat 2 1 1).raise d p 2

/-- Record a refusal: REFUSE loaded, STAT.REF and IRQ_STAT.REF set (R28, R34, R85). -/
def State.refuse (s : State) (d p cls word code : Nat) : State :=
  ((s.setReg d p Off.refuse (w32 (cls * 0x10000000 + word * 0x10000 + code))).setFld d p Off.stat 1 1 1).raise d p 1

/-! ### Cores, Faces, Slabs, Benches -/

/-- The key of a core: Face f at 16 b + f, strand k at 16 b + 8 + k. -/
def coreKey : CoreId → Nat
  | .face b f => b.val * 16 + f.val
  | .strand b k => b.val * 16 + 8 + k.val

/-- The Bench of a core. -/
def coreBench : CoreId → Nat
  | .face b _ => b.val
  | .strand b _ => b.val

/-- The unit a core belongs to: its Face, or 6 for the Molt. -/
def coreUnit : CoreId → Nat
  | .face _ f => f.val
  | .strand _ _ => 6

/-- The strand number, 0 on a Face. -/
def coreStrand : CoreId → Nat
  | .face _ _ => 0
  | .strand _ k => k.val

/-- The core is a Molt strand. -/
def coreMolt (c : CoreId) : Bool := coreUnit c == 6

/-- The page of a unit's control registers: FCC_ of the Face, or MLT_ (R96, R330). -/
def ctlPage (u : Nat) : Nat := if u = 6 then 0x90 else 0x10 + u

/-- A core's state. -/
def State.core (s : State) (k : Nat) : Core := smGet (fun _ => Core.empty) s.cores k

/-- A core's state changed. -/
def State.updCore (s : State) (k : Nat) (f : Core → Core) : State :=
  { s with cores := smSet (fun _ => Core.empty) s.cores k (f (s.core k)) }

/-- The key of a unit's state. -/
def faceKey (b u : Nat) : Nat := b * 8 + u

/-- A unit's state. -/
def State.face (s : State) (b u : Nat) : Face := smGet (fun _ => Face.empty) s.faces (faceKey b u)

/-- A unit's state changed. -/
def State.updFace (s : State) (b u : Nat) (f : Face → Face) : State :=
  { s with faces := smSet (fun _ => Face.empty) s.faces (faceKey b u) (f (s.face b u)) }

/-- A Slab of a Bench, numbered 4 × Face + Slab (R23). -/
def State.slab (s : State) (b i : Nat) : Slab := smGet (fun _ => Slab.empty) s.slabs (b * 32 + i)

/-- A Slab's state changed. -/
def State.updSlab (s : State) (b i : Nat) (f : Slab → Slab) : State :=
  { s with slabs := smSet (fun _ => Slab.empty) s.slabs (b * 32 + i) (f (s.slab b i)) }

/-- A Bench's state. -/
def State.bench (s : State) (b : Nat) : Bench := smGet (fun _ => Bench.empty) s.benches b

/-- A Bench's state changed. -/
def State.updBench (s : State) (b : Nat) (f : Bench → Bench) : State :=
  { s with benches := smSet (fun _ => Bench.empty) s.benches b (f (s.bench b)) }

/-- The next free value's number (the model's own counter). DESIGN CHOICE: log entries 12, 85. -/
def State.draw (s : State) : State := { s with fresh := s.fresh + 1 }

/-- What an operation of a Chute or a Weevil adds to its unit's counters of busy cycles and of collisions: the model has no
cycles, so both are free. DESIGN CHOICE: log entry 12. -/
def State.spend (s : State) (d p busy lost : Nat) : State :=
  ((s.bump d p busy (Config.cyclesOfTick d s.fresh)).bump d p lost (Config.lostToCollisions s.fresh)).draw

/-! ### Memory -/

/-- What an unlisted byte of memory reads as: 0. On-die memories are cleared by their resets (R424); for tiers N and C it is
the model's choice. DESIGN CHOICE: log entry 4. -/
def memDefault : Nat → Byte := fun _ => 0

/-- The canonical form of memory. -/
abbrev Memory.wf (m : List Host.Cell) : Bool := smWf memDefault m

/-- A place of the panel's memories as one number: region 1 tier N (unit = stack), 2 tier C (die 16 + q, unit = package),
3 Gallery scratch, 4 Face store (unit 6 the Molt store), 5 instruction memory (bit 17 of the address is the bank), 6 table
memory, 7 the boot window's buffers and the bundle, 8 the command engine's staging. DEDUCED: log entry 106. -/
def loc (region die unit a : Nat) : Nat := ((region * 32 + die) * 8 + unit) * 2 ^ 40 + a

/-- The region of a place. -/
def locRegion (l : Nat) : Nat := l / 2 ^ 40 / 256
/-- The die of a place. -/
def locDie (l : Nat) : Nat := l / 2 ^ 40 / 8 % 32
/-- The unit of a place. -/
def locUnit (l : Nat) : Nat := l / 2 ^ 40 % 8
/-- The address within its memory of a place. -/
def locAddr (l : Nat) : Nat := l % 2 ^ 40

/-- A Face-store place, or for unit 6 a Molt-store place. -/
def fsLoc (b u a : Nat) : Nat := loc 4 b u a

/-- One byte of memory. DESIGN CHOICE: log entry 4. -/
def State.byteAt (s : State) (l : Nat) : Byte := smGet memDefault s.mem l

/-- Bytes of memory. -/
def State.bytesAt (s : State) (l n : Nat) : List Byte := smGetList memDefault s.mem l n

/-- Bytes written to memory. -/
def State.putBytes (s : State) (l : Nat) (bs : List Byte) : State := { s with mem := smSetList memDefault s.mem l bs }

/-- Every byte of a memory unit cleared. -/
def State.clearRegion (s : State) (region die unit : Nat) : State :=
  { s with mem := smClear s.mem (fun l => l / 2 ^ 40 == (region * 32 + die) * 8 + unit) }

/-! ### The speculative overlay (R321 to R328) -/

/-- SPC_TSTAT.STATE of a Bench (R321). -/
def State.taskState (s : State) (b : Nat) : Nat := s.rfld b 0x98 Off.spcTstat 0 3

/-- The agent bits of R320: Faces 0 to 5, 6 Bench Hauler, 7 Molt, 8 collective deliveries; the control core, drains, rings,
Sieve, Weevil and Hauler of a Face are its Face's. -/
def State.inTask (s : State) (b ag : Nat) : Bool :=
  match (s.bench b).task with
  | some t => nbit t.agents ag
  | none => false

/-- The agent of a unit: a Face's own number, and 7 for the Molt (R320). DEDUCED: log entry 73. -/
def agentOf (u : Nat) : Nat := if u = 6 then 7 else u

/-- Held bytes are seen by an agent of the task while it is in SPEC (R323). Once it commits every agent sees them: they stand in
memory from then on (R326). -/
def State.seesHeld (s : State) (b ag : Nat) : Bool := s.taskState b == 1 && s.inTask b ag

/-- The byte that an agent of Bench `b` reads: a held byte where it sees those, memory otherwise (R323). -/
def State.byteAs (s : State) (b ag l : Nat) : Byte :=
  if s.seesHeld b ag then (smGet (fun _ => none) (s.bench b).held l).getD (s.byteAt l) else s.byteAt l

/-- The listed bytes that an agent reads at the places of `p`: memory, with held bytes over it (R323). -/
def State.seenCells (s : State) (b ag : Nat) (p : Nat → Bool) : List Host.Cell :=
  let m := s.mem.filter (fun c => p c.1)
  if s.seesHeld b ag then (s.bench b).held.foldl (fun m h => match h.2 with
    | some x => if p h.1 then smSet memDefault m h.1 x else m
    | none => m) m
  else m

/-- The state whose memory a running operation reads (R128, R141): where bytes of its operands have changed since its start, each
line as it stood then or as it stands now. DEDUCED: log entry 34. -/
def State.lateReads (s : State) (b ag : Nat) (p : Nat → Bool) (line : Nat → Nat) (n : Nat) (early : List Host.Cell) : State :=
  let now := s.seenCells b ag p
  if now = early then s
  else ((early ++ now).map (·.1)).foldl
    (fun s k => s.putBytes k [smGet memDefault (if Config.lineReadLate n (line k) then now else early) k])
    (s.updBench b (fun x => { x with held := x.held.filter (fun h => !p h.1) }))

/-- A place lies in a range. -/
def inRange (a n k : Nat) : Bool := decide (a ≤ k) && decide (k < a + n)

/-- Bytes read by an agent. -/
def State.bytesAs (s : State) (b ag l : Nat) : Nat → List Byte
  | 0 => []
  | n + 1 => s.byteAs b ag l :: s.bytesAs b ag (l + 1) n

/-- Bytes held from place `l` on. -/
def holdBytes (m : SMap (Option Byte)) (l : Nat) : List Byte → SMap (Option Byte)
  | [] => m
  | x :: xs => holdBytes (smSet (fun _ => none) m l (some x)) (l + 1) xs

/-- A store by an agent of Bench `b` (R322, R323, R326, R327): held in SPEC by the task's agents, dropped and counted once the task is
discarded, and otherwise straight to memory. DEDUCED: log entry 24. -/
def State.storeAs (s : State) (b ag l : Nat) (bs : List Byte) : State :=
  let st := s.taskState b
  if st = 1 && s.inTask b ag && !(locRegion l == 4 && locUnit l == 6) then
    s.updBench b (fun x => { x with held := holdBytes x.held l bs })
  else if st = 3 && s.inTask b ag && !(locRegion l == 4 && locUnit l == 6) then s.bump b 0x98 Off.spcDropw 1
  else s.putBytes l bs

/-- A list of stores by one agent, in order. -/
def State.storesAs (s : State) (b ag : Nat) (ws : List (Nat × List Byte)) : State :=
  ws.foldl (fun s w => s.storeAs b ag w.1 w.2) s

/-- The stores of an operation that is stopped: those that it had made, which the manual leaves open (R183, R198).
DESIGN CHOICE: log entry 113. -/
def State.storesSome (s : State) (b ag : Nat) (ws : List (Nat × List Byte)) : State :=
  (s.storesAs b ag (ws.take (Config.writesMade s.fresh))).draw

/-- The lines of `n` bytes that hold a byte whose place satisfies `p`, counted over held bytes in ascending order. -/
def lineCount (n : Nat) (p : Nat → Bool) : Option Nat → SMap (Option Byte) → Nat
  | _, [] => 0
  | last, (k, _) :: m =>
    if p k then (if last = some (k / n) then 0 else 1) + lineCount n p (some (k / n)) m else lineCount n p last m

/-- A place is one of Bench `b`'s Face store `f`. -/
def inStoreOf (b f : Nat) (l : Nat) : Bool := l / 2 ^ 40 == (4 * 32 + b) * 8 + f

/-- A held place lies in the speculative ways: it is in no Face store of the own Bench (R322). -/
def inSpecWays (b : Nat) (l : Nat) : Bool := !(locRegion l == 4 && locDie l == b)

/-- Held bytes fit: 4,096 lines of 64 B in each Face store's shadow, and 65,536 lines of 128 B for each speculative way
(R239, R322, R324). DEDUCED: log entry 33. -/
def State.specFits (s : State) (b : Nat) (m : SMap (Option Byte)) : Bool :=
  (List.range 6).all (fun f => decide (lineCount 64 (inStoreOf b f) none m ≤ 4096))
    && decide (lineCount 128 (inSpecWays b) none m ≤ 65536 * s.rfld b 0x70 Off.galWays 16 3)

/-- A store would have to wait for room (R324): the task is in SPEC, the agent is one of its agents, and the lines it needs do
not fit. DEDUCED: log entry 33. -/
def State.storeStalls (s : State) (b ag : Nat) (ws : List (Nat × List Byte)) : Bool :=
  s.taskState b == 1 && s.inTask b ag
    && !s.specFits b (ws.foldl (fun m w => if locRegion w.1 == 4 && locUnit w.1 == 6 then m else holdBytes m w.1 w.2) (s.bench b).held)

/-- A capacity stall begins or goes on: SPC_STAT.BLK.STALLNOW, and IRQ_STAT.BLK.STALL when it begins (R324, R331).
DEDUCED: log entry 33. -/
def State.noteStall (s : State) (b : Nat) : State :=
  if wbit (s.reg b 0x98 Off.stat) 18 then s else (s.setFld b 0x98 Off.stat 18 1 1).raise b 0x98 0x40000

/-- A little-endian number read by an agent (R6). -/
def State.natAs (s : State) (b ag l n : Nat) : Nat := leNat (s.bytesAs b ag l n)

end Sys2Proof.Machine
end

