-- ==== Sys2Proof/Machine/Links.lean ====
section
/-!
DEFINITION. The Rhocha fabric between the dies: its shape (R11, R12), packets (R265, R266), the hop-by-hop route of a packet (R268, R274,
R275), the buffers and credits of a port (R269), and the frames that a link carries (R263, R264, R267). A packet that a die sends
waits at an output port, crosses each link in a frame, and joins `State.fabric` when it has reached the die that it names.
-/

namespace Sys2Proof.Machine

/-! ### Shape (R11, R12, R274) -/

/-- Ports of a Bench: N, E, S, W, spur. -/
abbrev portN : Nat := 0
/-- Port E. -/
abbrev portE : Nat := 1
/-- Port S. -/
abbrev portS : Nat := 2
/-- Port W. -/
abbrev portW : Nat := 3
/-- The spur port. -/
abbrev portSpur : Nat := 4

/-- The quadrant of a Bench (R12). -/
def quadrant (n : Nat) : Nat := n % 4 / 2 + 2 * (n / 4 / 2)

/-- The Stockpile port of a Bench (R11). -/
def spurPort (n : Nat) : Nat := n % 4 % 2 + 2 * (n / 4 % 2)

/-- The partner of a port (R11). -/
def partner (d port : Nat) : Option (Nat × Nat) :=
  if d < 16 then
    match port with
    | 0 => if d < 12 then some (d + 4, portS) else none
    | 1 => if d % 4 < 3 then some (d + 1, portW) else none
    | 2 => if 4 ≤ d then some (d - 4, portN) else some (20, d % 4)
    | 3 => if 0 < d % 4 then some (d - 1, portE) else none
    | 4 => some (16 + quadrant d, spurPort d)
    | _ => none
  else if d < 20 then
    match (List.range 16).find? (fun n => quadrant n == d - 16 && spurPort n == port) with
    | some n => some (n, portSpur)
    | none => none
  else if d = 20 && port < 4 then some (port, portS)
  else none

/-- Every port of the fabric. -/
def allPorts : List (Nat × Nat) :=
  (List.range 16).flatMap (fun d => (List.range 5).map (fun p => (d, p))) ++ (List.range 5).flatMap (fun k => (List.range 4).map (fun p => (16 + k, p)))

/-- The Benches of a segment after its start, X first or Y first (R275). -/
def segment (yFirst : Bool) (a b : Nat) : List Nat :=
  let xs := fun (y x0 x1 : Nat) => if x0 ≤ x1 then (List.range (x1 - x0)).map (fun i => x0 + i + 1 + 4 * y)
    else (List.range (x0 - x1)).map (fun i => x0 - i - 1 + 4 * y)
  let ys := fun (x y0 y1 : Nat) => if y0 ≤ y1 then (List.range (y1 - y0)).map (fun i => x + 4 * (y0 + i + 1))
    else (List.range (y0 - y1)).map (fun i => x + 4 * (y0 - i - 1))
  if yFirst then ys (a % 4) (a / 4) (b / 4) ++ xs (b / 4) (a % 4) (b % 4) else xs (a / 4) (a % 4) (b % 4) ++ ys (b % 4) (a / 4) (b / 4)

/-- The Benches of a route, its source first (R275). -/
def routePath (src wp0 wp1 tgt : Nat) : List Nat := src :: segment false src wp0 ++ segment true wp0 wp1 ++ segment false wp1 tgt

/-- The port from a Bench to its neighbour. -/
def portTo (a b : Nat) : Nat := if b = a + 4 then portN else if b = a + 1 then portE else if b + 4 = a then portS else portW

/-! ### Ports -/

/-- The page of a port. -/
def lnkPage (port : Nat) : Nat := 0x80 + port

/-- LSTATE of a port (R262). -/
def State.lstate (s : State) (d port : Nat) : Nat := s.rfld d (lnkPage port) Off.stat 16 3

/-- LSTATE set. -/
def State.setLstate (s : State) (d port v : Nat) : State := s.setFld d (lnkPage port) Off.stat 16 3 v

/-- A port's receiving side. -/
def State.port (s : State) (d port : Nat) : Port := smGet (fun _ => Port.empty) s.ports (d * 8 + port)

/-- A port's receiving side changed. -/
def State.updPort (s : State) (d port : Nat) (f : Port → Port) : State :=
  { s with ports := smSet (fun _ => Port.empty) s.ports (d * 8 + port) (f (s.port d port)) }

/-- FLOG of the fabric manager (R290). -/
def State.fabricLog (s : State) (bench code : Nat) : State := s.recordFirst 20 0x80 Off.lnkFlog (bench * 2 ^ 16 + code)

/-! ### Packets (R265, R266) -/

/-- The route-table entry LNK_RTd of die `src` for die `dst` (R289); dies 21 and 22 are reached, and leave, as die 20. -/
def State.route (s : State) (src dst : Nat) : Word := s.reg (min src 20) 0x80 (Off.lnkRt + 4 * dst)

/-- The pair of dies has a route: the entry of a die for itself is always valid (R276, R289). -/
def State.routed (s : State) (src dst : Nat) : Bool := min src 20 == min dst 20 || wbit (s.route src dst) 31

/-- A packet from die `src` to die `dst` with its route fields from the source's table (R265, R268, R275); `mc` is its message
class, and it starts in phase 0. -/
def State.packet (s : State) (src dst ty mc tag sts aux word1 : Nat) (data : List Byte) : Packet :=
  let r := s.route src dst
  { ptype := BitVec.ofNat 8 ty, vc := BitVec.ofNat 3 mc, ddie := BitVec.ofNat 5 dst, tgt := BitVec.ofNat 5 (wfld r 10 5),
    wp0 := BitVec.ofNat 5 (wfld r 0 5), wp1 := BitVec.ofNat 5 (wfld r 5 5), len := BitVec.ofNat 4 (data.length / 64),
    sdie := BitVec.ofNat 5 src, tag := BitVec.ofNat 14 tag, sts := BitVec.ofNat 4 sts, aux := BitVec.ofNat 6 aux,
    word1 := BitVec.ofNat 64 word1, data := data }

/-- A packet type of R266, R305 or R337. -/
def packetKnown (ty : Nat) : Bool :=
  decide (ty ≤ 0x07) || (decide (0x10 ≤ ty) && decide (ty ≤ 0x14)) || (decide (0x20 ≤ ty) && decide (ty ≤ 0x23))
    || (decide (0x40 ≤ ty) && decide (ty ≤ 0x43))

/-- The types whose header is long (R266, R305, R337); a reserved type is read as short. DEDUCED: log entry 62. -/
def packetLong (ty : Nat) : Bool := packetKnown ty && !([0x00, 0x02, 0x04, 0x06, 0x41].contains ty)

/-- Word 0 of a header (R265). -/
def packetWord0 (p : Packet) : Nat :=
  p.ptype.toNat + p.vc.toNat * 2 ^ 8 + p.ddie.toNat * 2 ^ 11 + p.tgt.toNat * 2 ^ 16 + p.wp0.toNat * 2 ^ 21 + p.wp1.toNat * 2 ^ 26
    + p.len.toNat * 2 ^ 31 + p.sdie.toNat * 2 ^ 35 + p.tag.toNat * 2 ^ 40 + p.sts.toNat * 2 ^ 54 + p.aux.toNat * 2 ^ 58

/-- The header entries of a packet: one, or two for a long header (R265). -/
def packetEntries (p : Packet) : List Nat := if packetLong p.ptype.toNat then [packetWord0 p, p.word1.toNat] else [packetWord0 p]

/-- The packet that header words spell, before its data flits. -/
def packetOfWords (w0 w1 : Nat) : Packet :=
  { ptype := BitVec.ofNat 8 w0, vc := BitVec.ofNat 3 (fld w0 8 3), ddie := BitVec.ofNat 5 (fld w0 11 5), tgt := BitVec.ofNat 5 (fld w0 16 5),
    wp0 := BitVec.ofNat 5 (fld w0 21 5), wp1 := BitVec.ofNat 5 (fld w0 26 5), len := BitVec.ofNat 4 (fld w0 31 4),
    sdie := BitVec.ofNat 5 (fld w0 35 5), tag := BitVec.ofNat 14 (fld w0 40 14), sts := BitVec.ofNat 4 (fld w0 54 4),
    aux := BitVec.ofNat 6 (fld w0 58 6), word1 := BitVec.ofNat 64 w1, data := [] }

/-- The cells that a packet takes: one for its header and one for each data flit (R269). -/
def packetCells (p : Packet) : Nat := 1 + p.len.toNat

/-! ### The way of a packet (R268, R274, R275) -/

/-- The port by which a packet leaves a Bench that it does not end at, and the packet in the phase that it leaves in: on arrival at WP0
and at WP1 its phase rises; at TGT in phase 2 it takes its attach hop. -/
def nextHop (d : Nat) (p : Packet) : Nat × Packet :=
  let ph := p.vc.toNat / 2
  let ph := if ph = 0 ∧ d = p.wp0.toNat then 1 else ph
  let ph := if ph = 1 ∧ d = p.wp1.toNat then 2 else ph
  let goal := if ph = 0 then p.wp0.toNat else if ph = 1 then p.wp1.toNat else p.tgt.toNat
  let x := if d % 4 < goal % 4 then some portE else if goal % 4 < d % 4 then some portW else none
  let y := if d / 4 < goal / 4 then some portN else if goal / 4 < d / 4 then some portS else none
  let way := if ph = 1 then y.or x else x.or y
  (way.getD (if p.ddie.toNat < 20 then portSpur else portS), { p with vc := BitVec.ofNat 3 (2 * ph + p.vc.toNat % 2) })

/-- A packet put in the queue of an output port. -/
def State.queueAt (s : State) (d port : Nat) (q : Queued) : State := s.updPort d port (fun r => { r with out := r.out ++ [q] })

/-- A memory request, or an atomic. -/
def isRequest (p : Packet) : Bool := p.ptype == 0x01 || p.ptype == 0x03 || p.ptype == 0x05

/-- A packet has reached the die that it names; at a Stockpile, STK_RQPEAK follows the requests that wait (R255). -/
def State.reach (s : State) (p : Packet) : State :=
  let s : State := { s with fabric := s.fabric ++ [p] }
  let d := p.ddie.toNat
  let n : Nat := s.fabric.countP (fun q => q.ddie == p.ddie && isRequest q)
  if 16 ≤ d ∧ d < 20 ∧ (s.reg d 0x00 Off.stkRqpeak).toNat < n then s.setReg d 0x00 Off.stkRqpeak (w32 n) else s

/-- A packet on its way from a die (R274, R275): it has arrived where it names its own die; a die that is no Bench sends it out by the port
of its route; with no valid route it is lost. DEDUCED: log entries 9, 62. -/
def State.send (s : State) (p : Packet) : State :=
  let src := min p.sdie.toNat 20
  if src = min p.ddie.toNat 20 then s.reach p
  else if !s.routed src p.ddie.toNat then s
  else if src < 16 then let h := nextHop src p; s.queueAt src h.1 ⟨h.2, none⟩
  else s.queueAt src (wfld (s.route src p.ddie.toNat) 15 3) ⟨p, none⟩

/-! ### Register and shadow packets (R337) -/

/-- A page with the header of R22. -/
def hasHeader (d p : Nat) : Bool :=
  match pageKind d p with
  | some .msix | some .pba | none => false
  | _ => true

/-- The number of an agent in a register-write packet and in the log of dropped writes (R337, R356). -/
def agentNum : Agent → Nat
  | .host => 0
  | .fw => 1
  | .carapace => 2
  | .safety => 3

/-- The page that a register or shadow packet names in its ADDR. -/
def packetPage (p : Packet) : Nat := fld p.word1.toNat 12 8

/-- A write's packet: the offset of the register in its die, the value in bytes 0 to 3 of the flit and the agent in byte 4.
DEDUCED: log entry 10. -/
def State.regwrPacket (s : State) (w : PageStore) : Packet :=
  s.packet 20 (keyDie w.key) 0x40 0 w.tag 0 0 (keyPage w.key * 0x1000 + keyOff w.key)
    (padTo 64 0 (leBytes 4 w.data.toNat ++ [BitVec.ofNat 8 (agentNum w.agent)]))

/-- The packet carries the write. -/
def PageStore.isIn (w : PageStore) (p : Packet) : Bool :=
  p.ptype == 0x40 && p.ddie.toNat == keyDie w.key && packetPage p == keyPage w.key && p.tag == BitVec.ofNat 14 w.tag

/-- The acknowledgement of a write, message class 1. -/
def State.regackPacket (s : State) (d tag : Nat) : Packet := s.packet d 20 0x41 1 tag 0 0 0 []

/-- A packet acknowledges the write of a number. -/
def isRegack (tag : Nat) (p : Packet) : Bool := p.ptype == 0x41 && p.tag == BitVec.ofNat 14 tag

/-- A shadow request to a page. -/
def State.shreqPacket (s : State) (d p : Nat) : Packet := s.packet 20 d 0x43 0 0 0 0 (p * 0x1000) []

/-- The Weighbridge asks every page of a die for its shadowed registers. -/
def State.askShadows (s : State) (d : Nat) : State :=
  ((List.range 256).filter (hasHeader d)).foldl (fun s p => s.send (s.shreqPacket d p)) s

/-- The oldest packet at its die that satisfies `q`, taken there; `none` where no such packet waits. -/
def State.takeWhere (s : State) (q : Packet → Bool) : Option (Packet × State) :=
  (s.fabric.find? q).map (fun p => (p, { s with fabric := s.fabric.erase p }))

/-- A packet that has reached its die, taken there; `none` where no such packet waits. DEDUCED: log entry 9. -/
def State.takePacket (s : State) (p : Packet) : Option State :=
  if p ∈ s.fabric then some { s with fabric := s.fabric.erase p } else none

/-- Every packet that is on its way or waits at its die. DEDUCED: log entry 9. -/
def State.flying (s : State) : List Packet :=
  s.fabric ++ s.ports.flatMap (fun x => x.2.out.map (·.pkt) ++ x.2.parts ++ x.2.replay.flatMap (·.starts))

/-- Register writes whose packet or acknowledgement is nowhere on its way any more have been lost with a link: nothing waits for them.
DEDUCED: log entry 10. -/
def State.loseWrites (s : State) : State :=
  let fs := s.flying
  { s with path := { s.path with forwarded := s.path.forwarded.filter (fun w => fs.any w.isIn),
                                 acks := s.path.acks.filter (fun t => fs.any (isRegack t)) } }

/-! ### Credits (R269) -/

/-- The cells of a receive buffer. -/
abbrev bufferCells : Nat := 1024

/-- The entries of a count for each virtual channel, added. -/
def vcSum (m : SMap Nat) : Nat := ((List.range 6).map (smGet (fun _ => 0) m)).sum

/-- The cells that a sender may charge for a channel, with `r` cells reserved to each: its reserved ones that remain, and the shared
ones. -/
def Port.credit (p : Port) (r v : Nat) : Nat :=
  (r - smGet (fun _ => 0) p.reserved v) + (bufferCells - 6 * r - vcSum p.shared)

/-- Cells charged: to the reserved cells of the channel while any remain, and to the shared cells otherwise. -/
def Port.charge (p : Port) (r v n : Nat) : Port :=
  let a := smGet (fun _ => 0) p.reserved v
  let k := min n (r - a)
  { p with reserved := smSet (fun _ => 0) p.reserved v (a + k),
           shared := smSet (fun _ => 0) p.shared v (smGet (fun _ => 0) p.shared v + (n - k)) }

/-- Cells returned: the reserved ones are refilled first. -/
def Port.refill (p : Port) (v n : Nat) : Port :=
  let a := smGet (fun _ => 0) p.reserved v
  let k := min n a
  { p with reserved := smSet (fun _ => 0) p.reserved v (a - k),
           shared := smSet (fun _ => 0) p.shared v (smGet (fun _ => 0) p.shared v - (n - k)) }

/-- Cells of the receive buffer freed, to be returned in the next frame sent. -/
def Port.release (p : Port) (v n : Nat) : Port :=
  { p with cells := p.cells - n, freed := smSet (fun _ => 0) p.freed v (smGet (fun _ => 0) p.freed v + n) }

/-! ### Forming a frame (R263, R264, R267, R269) -/

/-- A frame being filled: the sending port, the header flits so far, each with its entries, and the packets started. -/
structure Fill where
  port : Port
  heads : List (List Nat)
  starts : List Queued

/-- The header flits with a packet's entries put in: both entries of a long header lie in one flit. -/
def putEntries (heads : List (List Nat)) (es : List Nat) : List (List Nat) :=
  match heads.getLast? with
  | some h => if h.length + es.length ≤ 8 then heads.dropLast ++ [h ++ es] else heads ++ [es]
  | none => [es]

/-- The data flits that a frame takes beside its header flits: at most 36 of the 39 content flits. -/
def dataRoom (heads : Nat) : Nat := min 36 (39 - heads)

/-- The packet to start next: the oldest of the first channel, in round-robin order, whose oldest packet has credit for all its
cells. -/
def Port.pick (p : Port) (r : Nat) : Option Queued :=
  (List.range 6).findSome? (fun i =>
    let v := (p.turn + 1 + i) % 6
    match p.out.find? (fun q => q.pkt.vc.toNat == v) with
    | some q => if packetCells q.pkt ≤ p.credit r v then some q else none
    | none => none)

/-- Packets started one by one while their header entries fit. DEDUCED: log entry 62. -/
def Fill.more (r : Nat) : Nat → Fill → Fill
  | 0, f => f
  | n + 1, f =>
    match f.port.pick r with
    | none => f
    | some q =>
      let heads := putEntries f.heads (packetEntries q.pkt)
      let tail := f.port.tail ++ chunksOf 64 8 q.pkt.data
      if 39 < heads.length + min 36 f.port.tail.length then f
      else
        let v := q.pkt.vc.toNat
        Fill.more r n ⟨{ f.port.charge r v (packetCells q.pkt) with out := f.port.out.erase q, turn := v, tail := tail }, heads, f.starts ++ [q]⟩

/-- A header flit: eight entries of 8 bytes, those not used of TYPE 0x00. -/
def headFlit (es : List Nat) : List Byte := (padTo 8 0 es).flatMap (leBytes 8)

/-- One step of CRC-64 with the ECMA-182 polynomial, most significant bit first. -/
def crcBit (c : Nat) (b : Bool) : Nat := if c.testBit 63 != b then ((2 * c) % 2 ^ 64) ^^^ 0x42F0E1EBA9EA3693 else (2 * c) % 2 ^ 64

/-- CRC-64, ECMA-182 polynomial (R264), from 0, each byte's most significant bit first. PRESUMED: log entry 119. -/
def crc64 (bs : List Byte) : Nat := bs.foldl (fun c b => (List.range 8).foldl (fun c i => crcBit c (b.getLsbD (7 - i))) c) 0

/-- The check flit (R264): SEQ, ACK, MAP with NAK, CRED, the CRC over the content flits and these bytes, and the parity of FEC, whose
code the manual does not give whole. PRESUMED: log entry 119. -/
def checkFlit (content : List (List Byte)) (seq ack map : Nat) (cred : List Nat) : List Byte :=
  let head := leBytes 2 seq ++ leBytes 2 ack ++ leBytes 5 map ++ (padTo 6 0 cred).map (BitVec.ofNat 8) ++ [0]
  let body := head ++ leBytes 8 (crc64 (content.flatten ++ head))
  body ++ (List.range 40).map (Config.fecParity (content.flatten ++ body))

/-- The frame of a fill (R263): header flits, data flits, and idle flits up to 39 content flits, then the check flit; the data flits that
do not fit stay for the next frame. DEDUCED: log entry 62. -/
def Fill.frame (f : Fill) : SentFrame × Port :=
  let p := f.port
  let data := p.tail.take (dataRoom f.heads.length)
  let idle := List.replicate (39 - f.heads.length - data.length) (headFlit [])
  let content := f.heads.map headFlit ++ data ++ idle
  let map := maskOf ((List.range 39).filter (fun i => decide (i < f.heads.length) || decide (f.heads.length + data.length ≤ i)))
  let cred := (List.range 6).map (fun v => min 255 (smGet (fun _ => 0) p.freed v))
  let fr : SentFrame := ⟨p.next, content ++ [checkFlit content p.next ((p.expect + 65535) % 65536) (map + if p.nakDue then 2 ^ 39 else 0) cred],
    f.starts.map (·.pkt)⟩
  (fr, { p with tail := p.tail.drop data.length, next := (p.next + 1) % 65536, nakDue := false, replay := p.replay ++ [fr],
                freed := (List.range 6).foldl (fun m v => smSet (fun _ => 0) m v (smGet (fun _ => 0) m v - cred.getD v 0)) p.freed })

/-- The cells that the packets started have held in the receive buffers of their die are free. -/
def State.freeCells (s : State) (d : Nat) (qs : List Queued) : State :=
  qs.foldl (fun s q => match q.cell with
    | some (port, v) => s.updPort d port (fun r => r.release v (packetCells q.pkt))
    | none => s) s

/-- The data flits of a frame, by its MAP. -/
def frameData (flits : List (List Byte)) : Nat :=
  39 - popCount 39 (leNat (((flits.getD 39 []).drop 4).take 5))

/-- A kept frame as it is sent again: the same content and credits, with the ACK of now, and NAK where it had it or is due.
DEDUCED: log entry 62. -/
def Port.again (p : Port) (f : SentFrame) : SentFrame :=
  let content := f.flits.take 39
  let check := f.flits.getD 39 []
  let map := leNat ((check.drop 4).take 5)
  let map := map % 2 ^ 39 + if p.nakDue || nbit map 39 then 2 ^ 39 else 0
  { f with flits := content ++ [checkFlit content f.seq ((p.expect + 65535) % 65536) map (((check.drop 9).take 6).map BitVec.toNat)] }

/-- The next frame that a port sends: the next one of a replay, or a new one while fewer than 128 wait for their acknowledgement; `none`
where it may send none. `r` is the number of cells that the far end reserves to each channel. DEDUCED: log entry 62. -/
def State.nextFrame (s : State) (d port r : Nat) : Option (SentFrame × State) :=
  let p := s.port d port
  match p.resend.bind (fun n => p.replay.find? (fun f => f.seq == n)) with
  | some f =>
    let later := (f.seq + 1) % 65536
    some (p.again f, ((s.updPort d port (fun p =>
      { p with nakDue := false, resend := if p.replay.any (·.seq == later) then some later else none,
               replay := p.replay.map (fun g => if g.seq = f.seq then p.again f else g) })).bump d (lnkPage port)
      Off.lnkReplay 1).raise d (lnkPage port) 0x40000)
  | none =>
    if 128 ≤ p.replay.length then none
    else
      let f := Fill.more r 312 ⟨{ p with resend := none }, [], []⟩
      let x := f.frame
      some (x.1, (s.updPort d port (fun _ => x.2)).freeCells d f.starts)

/-! ### Taking a frame (R264, R267) -/

/-- The entries of a header flit. -/
def flitEntries (flit : List Byte) : List Nat := (chunksOf 8 8 flit).map leNat

/-- The packets whose headers a list of entries holds (R265, R266): NULL entries are skipped. -/
def headPackets : List Nat → List Packet
  | [] => []
  | w :: ws =>
    if w % 256 = 0 then headPackets ws
    else if packetLong (w % 256) then match ws with
      | w1 :: rest => packetOfWords w w1 :: headPackets rest
      | [] => []
    else packetOfWords w 0 :: headPackets ws

/-- The packet has all its data flits. -/
def packetWhole (p : Packet) : Bool := decide (64 * p.len.toNat ≤ p.data.length)

/-- A data flit belongs to the first packet that lacks one (R267). -/
def giveFlit (flit : List Byte) : List Packet → List Packet
  | [] => []
  | p :: ps => if packetWhole p then p :: giveFlit flit ps else { p with data := p.data ++ flit } :: ps

/-- The content flits of a frame read in their order, by its MAP: the packets in part, with each header or data flit taking a cell. -/
def takeFlits (map : Nat) : Nat → List (List Byte) → Port → Port
  | _, [], p => p
  | i, f :: fs, p =>
    if nbit map i then
      let ps := headPackets (flitEntries f)
      takeFlits map (i + 1) fs { p with parts := p.parts ++ ps, cells := p.cells + ps.length }
    else takeFlits map (i + 1) fs { p with parts := giveFlit f p.parts, cells := p.cells + 1 }

/-- A packet that has arrived whole at a port: one of a reserved type is discarded and counted (R266), one that names this die joins the
packets that wait there, and any other goes on to its next port, its cells held until it leaves (R269, R275). -/
def State.accept (s : State) (d port : Nat) (p : Packet) : State :=
  let v := p.vc.toNat
  let free := fun (s : State) => s.updPort d port (fun r => r.release v (packetCells p))
  if !packetKnown p.ptype.toNat then free (s.bump d (lnkPage port) Off.lnkBadpkt 1)
  else if min p.ddie.toNat 20 = d then free (s.reach p)
  else if d < 16 then let h := nextHop d p; s.queueAt d h.1 ⟨h.2, some (port, v)⟩
  else free s

/-- The packets that have arrived whole leave the port's receive side in their order. -/
def State.acceptWhole (s : State) (d port : Nat) : List Packet → State
  | [] => s
  | p :: ps => if packetWhole p then ((s.updPort d port (fun r => { r with parts := r.parts.drop 1 })).accept d port p).acceptWhole d port ps else s

/-- SEQ numbers up to ACK have been received whole: those frames need not be kept. -/
def acked (ack : Nat) (l : List SentFrame) : List SentFrame :=
  match l.findIdx? (fun f => f.seq == ack) with
  | some i => l.drop (i + 1)
  | none => l

/-- What a frame whose CRC holds says of the other direction (R264): the acknowledged frames go, and on NAK the rest is resent. -/
def Port.heed (p : Port) (ack : Nat) (nak : Bool) : Port :=
  let l := acked ack p.replay
  let first := l.head?.map (·.seq)
  { p with replay := l, resend := if nak then first else p.resend.bind (fun n => if l.any (·.seq == n) then some n else first) }

end Sys2Proof.Machine
end

