-- ==== Sys2Proof/Machine/Flags.lean ====
section
/-!
DEFINITION. Dependences and event flags: WAIT and SIGNAL in flag and token mode (R97 to R107), ring signals (R149), remote
signals (R109 to R111), and the sticky arithmetic flags (R61, R62, R158).
-/

namespace Sys2Proof.Machine

/-- FCC_CTL.DEPMODE = 1; the Molt is always in flag mode (R104, R314). -/
def State.tokenMode (s : State) (b u : Nat) : Bool := u != 6 && wbit (s.reg b (0x10 + u) Off.ctl) 16

/-- A counter's value (R97). -/
def State.counter (s : State) (b u c : Nat) : Nat := smGet (fun _ => 0) (s.face b u).ctr c

/-- The tokens in a queue (R104). -/
def State.tokens (s : State) (b u q : Nat) : Nat := smGet (fun _ => 0) (s.face b u).tok q

/-- A flag set or cleared (R98). -/
def State.setFlag (s : State) (b u i : Nat) (v : Bool) : State :=
  s.updFace b u (fun f => { f with flags := BitVec.ofNat 32 (putFld f.flags.toNat i 1 v.toNat) })

/-- A counter loaded (R98). -/
def State.setCounter (s : State) (b u c n : Nat) : State :=
  s.updFace b u (fun f => { f with ctr := smSet (fun _ => 0) f.ctr c n })

/-- A signed addition to a counter, clamped to 0 and 2^32 − 1; a clamp sets the Face's bit in BEN_DEP_SAT and
BEN_ IRQ_STAT.CSAT (R98, R115). DEDUCED: log entry 32. -/
def State.addCounter (s : State) (b u c : Nat) (d : Int) : State :=
  let v := (s.counter b u c : Int) + d
  let r : Nat := if v < 0 then 0 else if 4294967295 < v then 4294967295 else v.toNat
  let s' := s.setCounter b u c r
  if (r : Int) = v || u = 6 then s'
  else (s'.setFld b 0 Off.benDepSat u 1 1).raise b 0 0x20000

/-- Tokens pushed to a queue. -/
def State.pushTokens (s : State) (b u q n : Nat) : State :=
  s.updFace b u (fun f => { f with tok := smSet (fun _ => 0) f.tok q (smGet (fun _ => 0) f.tok q + n) })

/-- One token popped from a queue. -/
def State.popToken (s : State) (b u q : Nat) : State :=
  s.updFace b u (fun f => { f with tok := smSet (fun _ => 0) f.tok q (smGet (fun _ => 0) f.tok q - 1) })

/-- Fields of a long form (R76). -/
def lfWord (ws : List Word) (i : Nat) : Nat := (ws.getD i 0).toNat
/-- WC of a long form. -/
def lfWc (ws : List Word) : Bool := nbit (lfWord ws 0) 7
/-- WCN of a long form. -/
def lfWcn (ws : List Word) : Nat := fld (lfWord ws 0) 8 4
/-- WTH of a long form. -/
def lfWth (ws : List Word) : Nat := fld (lfWord ws 0) 12 16
/-- SK of a long form. -/
def lfSk (ws : List Word) : Nat := fld (lfWord ws 0) 28 2
/-- WMASK of a long form. -/
def lfWmask (ws : List Word) : Nat := lfWord ws 1
/-- SIX of a long form. -/
def lfSix (ws : List Word) : Nat := fld (lfWord ws 2) 0 5
/-- SINC of a long form. -/
def lfSinc (ws : List Word) : Nat := fld (lfWord ws 2) 5 8
/-- IXR of a long form. -/
def lfIxr (ws : List Word) : Nat := fld (lfWord ws 2) 13 5
/-- LOP of a long form. -/
def lfLop (ws : List Word) : Nat := fld (lfWord ws 0) 1 6
/-- FMTA of a long form. -/
def lfFmtA (ws : List Word) : Fmt := Fmt.ofCode (fld (lfWord ws 3) 5 4)
/-- FMTB of a long form. -/
def lfFmtB (ws : List Word) : Fmt := Fmt.ofCode (fld (lfWord ws 3) 9 4)
/-- IMM19 of a long form. -/
def lfImm (ws : List Word) : Nat := fld (lfWord ws 3) 13 19

/-- The WAIT of a long form is satisfied (R99, R104). -/
def State.waitOk (s : State) (b u : Nat) (ws : List Word) : Bool :=
  if s.tokenMode b u then !lfWc ws || decide (1 ≤ s.tokens b u (lfWcn ws))
  else (s.face b u).flags.toNat &&& lfWmask ws == lfWmask ws
    && (!lfWc ws || decide (lfWth ws ≤ s.counter b u (lfWcn ws)))

/-- What a start takes: in token mode, with WC = 1, one token (R104). -/
def State.takeWait (s : State) (b u : Nat) (ws : List Word) : State :=
  if s.tokenMode b u && lfWc ws then s.popToken b u (lfWcn ws) else s

/-- The SIGNAL of a long form can be given now: it does not push to a full token queue (R106). -/
def State.signalRoom (s : State) (b u : Nat) (ws : List Word) : Bool :=
  !(s.tokenMode b u && lfSk ws == 2 && decide (1024 ≤ s.tokens b u (lfSix ws % 16)))

/-- The SIGNAL of a long form (R98, R104). -/
def State.giveSignal (s : State) (b u : Nat) (ws : List Word) : State :=
  if s.tokenMode b u then (if lfSk ws = 2 then s.pushTokens b u (lfSix ws % 16) 1 else s)
  else if lfSk ws = 1 then s.setFlag b u (lfSix ws) true
  else if lfSk ws = 2 then s.addCounter b u (lfSix ws % 16) (lfSinc ws)
  else s

/-! ### Ring signals (R149), also those of SIV_VSIG, OKSIG and BADSIG: KIND [1:0], IDX [6:2], INC [14:7] -/

/-- A ring signal that need not wait is applied: KIND 1 sets a flag and is dropped and counted in token mode, KIND 2 adds to
a counter or pushes tokens. -/
def State.applyRing (s : State) (b u : Nat) (w : Word) : State :=
  let kind := wfld w 0 2
  let idx := wfld w 2 5
  let inc := wfld w 7 8
  if kind = 1 then
    if s.tokenMode b u then (s.bump b (0x48 + u) Off.vecSigdrop 1).raise b (0x48 + u) 0x10000
    else s.setFlag b u idx true
  else if kind = 2 then
    if s.tokenMode b u then s.pushTokens b u (idx % 16) inc else s.addCounter b u (idx % 16) inc
  else s

/-- A KIND 2 ring signal in token mode that would overfill its queue (R149). -/
def State.ringBlocked (s : State) (b u : Nat) (w : Word) : Bool :=
  s.tokenMode b u && wfld w 0 2 == 2 && decide (1024 < s.tokens b u (wfld w 2 5 % 16) + wfld w 7 8)

/-- A ring signal given: applied, or queued behind one that waits (R149). -/
def State.ringSignal (s : State) (b u : Nat) (w : Word) : State :=
  if (s.face b u).deferred ≠ [] || s.ringBlocked b u w then
    if wfld w 0 2 = 0 then s else s.updFace b u (fun f => { f with deferred := f.deferred ++ [w] })
  else s.applyRing b u w

/-! ### Remote signals (R109 to R111) -/

/-- The word is malformed (R111). -/
def rsigMalformed (w : Word) : Bool :=
  decide (15 < wfld w 0 5) || decide (5 < wfld w 5 3) || wfld w 8 2 == 3 || (wfld w 8 2 == 2 && decide (15 < wfld w 10 5))
    || wfld w 23 9 != 0

/-- The context that a Bench belongs to: its byte of CAR_BOWN (R386). -/
def State.benchCtx (s : State) (b : Nat) : Nat := s.rfld 21 0x20 (Off.carBown + 4 * (b / 4)) (8 * (b % 4)) 7

/-- The main power domain of a die is on: CPV_DOM.UNCORE (R430). An absent Bench counts as a Bench whose uncore domain is off (R393). -/
def State.uncoreOn (s : State) (d : Nat) : Bool :=
  wbit (s.reg d 0xF0 Off.cpvDom) 1 && !(decide (d < 16) && wbit (s.reg 20 8 Off.wbgAbsent) d)

/-- The Bench is retired in the fuses in force (R2). -/
def State.isRetired (s : State) (b : Nat) : Bool := nbit s.retired b

/-- The fabric manager marks the Bench fenced, or is fencing it (R282, R290); a Bench that is being readmitted counts as back
from the route load of R284 on. -/
def State.fencedOut (s : State) (b : Nat) : Bool :=
  let f := s.reg 20 0x80 Off.lnkFstat
  (wbit f (16 + b) && !(wfld f 0 3 == 3 && wfld f 3 5 == b && s.fm.after == 2)) || (wfld f 0 3 == 1 && wfld f 3 5 == b)

/-- A die answers no packet of the ordinary types: a Bench whose fence is in force, or a die without its uncore domain (R280, R285).
DEDUCED: log entry 60. -/
def State.deaf (s : State) (d : Nat) : Bool := (decide (d < 16) && (s.bench d).fenced) || !s.uncoreOn d

/-- Bench `t` cannot be reached from Bench `b`: retired, its uncore domain off, or fenced (R111, R218, R282). -/
def State.benchGone (s : State) (b t : Nat) : Bool := s.isRetired t || !s.uncoreOn t || (t != b && s.fencedOut t)

/-- A discard recorded in the BEN_ page of the sending Bench (R111, R115). -/
def State.rsigDiscard (s : State) (b src code : Nat) (w : Word) : State :=
  let first := !wbit (s.reg b 0 Off.benRsigLog) 31
  let s := s.recordFirst b 0 Off.benRsigLog (src * 0x10000 + code)
  let s := if first then s.setReg b 0 Off.benRsigWord w else s
  (s.bump b 0 Off.benRsigCnt 1).raise b 0 0x40000

/-- The RSIG packet of a remote-signal word from die `src` (R266). -/
def State.rsigPacket (s : State) (src : Nat) (w : Word) (tag : Nat) (answer : Bool) : Packet :=
  s.packet src (wfld w 0 5) 0x07 0 tag 0 answer.toNat w.toNat []

/-- A remote signal sent by a unit of Bench `b` whose SRC code is `src` and whose task agent is `ag` (R110, R111): nothing for
KIND 0; discarded and recorded in the cases of R111; held or dropped with the agent's task (R322, R327); else sent. -/
def State.sendRemote (s : State) (b ag src : Nat) (w : Word) : State :=
  if rsigMalformed w then s.rsigDiscard b src 0x0309 w
  else if wfld w 8 2 = 0 then s
  else
    let t := wfld w 0 5
    if s.benchCtx t ≠ s.benchCtx b then s.rsigDiscard b src 0x0306 w
    else if s.benchGone b t || (s.bench t).fenced then s.rsigDiscard b src 0x030A w
    else if s.taskState b = 1 && s.inTask b ag then
      s.updBench b (fun x => { x with task := x.task.map (fun t => { t with sigs := t.sigs ++ [(src, w)] }) })
    else if s.taskState b = 3 && s.inTask b ag then s.bump b 0x98 Off.spcDropw 1
    else s.send (s.rsigPacket b w src false)

/-- The held remote signals are full: one more waits (R322, R324). -/
def State.sigsFull (s : State) (b : Nat) : Bool :=
  match (s.bench b).task with
  | some t => decide (256 ≤ t.sigs.length)
  | none => false

/-- The WRACK that answers a packet (R266): class 1, the packet's TAG, back to its source. -/
def State.wrackTo (s : State) (p : Packet) (sts : Nat) : Packet :=
  s.packet p.ddie.toNat p.sdie.toNat 0x04 1 p.tag.toNat sts 0 0 []

/-- A remote signal applied at its target Face, which must have room for it (R98, R110). -/
def State.applyRemote (s : State) (b u : Nat) (w : Word) : State :=
  if wfld w 8 2 = 1 then s.setFlag b u (wfld w 10 5) true
  else if wfld w 8 2 = 2 then
    if s.tokenMode b u then s.pushTokens b u (wfld w 10 5) (wfld w 15 8)
    else s.addCounter b u (wfld w 10 5) (wfld w 15 8)
  else s

/-- A remote signal must wait for room in its token queue (R110). -/
def State.remoteBlocked (s : State) (b u : Nat) (w : Word) : Bool :=
  s.tokenMode b u && wfld w 8 2 == 2 && decide (1024 < s.tokens b u (wfld w 10 5) + wfld w 15 8)

/-- A remote signal at the head of its Face's input is settled (R110, R111, R350): applied, or discarded where it sets a flag
in token mode; where a SIGNAL command sent it, the answer goes back. -/
def State.settleRemote (s : State) (b u : Nat) (w : Word) (src : Packet) : State :=
  let bad := s.tokenMode b u && wfld w 8 2 == 1
  let asks := src.aux.getLsbD 0
  let s := if bad then (if asks then s else s.rsigDiscard src.sdie.toNat src.tag.toNat 0x0307 w) else s.applyRemote b u w
  if asks then s.send (s.wrackTo src (if bad then 3 else 0)) else s

/-! ### Arithmetic event flags -/

/-- A Face's sticky flags set; the Molt's stand in MLT_AFLAGS (R61, R62, R158, R319). -/
def State.addAFlags (s : State) (b u : Nat) (a : AFlags) : State :=
  if u = 6 then s.setReg b 0x90 Off.mltAflags (s.reg b 0x90 Off.mltAflags ||| w32 a.mask)
  else s.setReg b (0x48 + u) Off.vecAflags (s.reg b (0x48 + u) Off.vecAflags ||| w32 a.mask)

end Sys2Proof.Machine
end

