-- ==== Sys2Proof/Machine/Routes.lean ====
section
/-!
DEFINITION. The training and the loss of links (R260 to R262, R286, R288), and the routes that the fabric manager computes (R276 to
R279, R289).
-/

namespace Sys2Proof.Machine

/-! ### Links (R260 to R264, R288) -/

/-- The first 16 lanes of a mask, and the spares left. -/
def lanesInUse (good : Nat) : Nat × Nat :=
  let ls := bitList 18 good
  (maskOf (ls.take 16), ls.length - 16)

/-- The lane registers of a receiving port and of its partner's transmit side (R260, R288). -/
def State.showLanes (s : State) (d port use spare : Nat) : State :=
  let w := w32 (use + spare * 2 ^ 20)
  let s := s.setReg d (lnkPage port) Off.lnkRxlane w
  match partner d port with
  | some (e, q) => s.setReg e (lnkPage q) Off.lnkTxlane w
  | none => s

/-- Both ends of a link put in a state. -/
def State.setLink (s : State) (d port v : Nat) : State :=
  let s := s.setLstate d port v
  match partner d port with
  | some (e, q) => s.setLstate e q v
  | none => s

/-- Training starts on a link (R260). -/
def State.startTraining (s : State) (d port : Nat) : State := s.setLink d port 1

/-- A port as its training leaves it: nothing sent or received yet, and the packets that wait to leave it. -/
def Port.fresh (p : Port) (good : Nat) : Port := { Port.empty with good := good, out := p.out }

/-- Training ends: each direction's good lanes, `rx` received at this port and `tx` received at its partner. -/
def State.endTraining (s : State) (d port : Nat) (tx rx : Nat) : State :=
  match partner d port with
  | none => s
  | some (e, q) =>
    if 16 ≤ popCount 18 tx && 16 ≤ popCount 18 rx then
      let r := lanesInUse rx
      let t := lanesInUse tx
      let s := ((s.setLink d port 2).updPort d port (fun p => p.fresh rx)).updPort e q (fun p => p.fresh tx)
      let s := (s.showLanes d port r.1 r.2).showLanes e q t.1 t.2
      let s := (s.setFld d (lnkPage port) Off.stat 20 1 0).setFld e (lnkPage q) Off.stat 20 1 0
      (s.setReg d (lnkPage port) Off.lnkPeer (w32 (e + 32 * q))).setReg e (lnkPage q) Off.lnkPeer (w32 (d + 32 * port))
    else s.setLink d port 4

/-- A die that is no end of a usable link; a fenced Bench may end a route at itself (R276). -/
def State.deadEnd (s : State) (target d : Nat) : Bool :=
  if d < 16 then s.isRetired d || !s.uncoreOn d || (d != target && s.fencedOut d) else decide (d < 20) && !s.uncoreOn d

/-- The link that leaves a die by a port is usable on a route to `target` (R276). DEDUCED: log entry 63. -/
def State.usable (s : State) (target d port : Nat) : Bool :=
  match partner d port with
  | some (e, _) => s.lstate d port == 2 && !s.deadEnd target d && !s.deadEnd target e
  | none => false

/-! ### Routes (R274 to R278) -/

/-- Every link of a path is usable. -/
def State.pathOk (s : State) (target : Nat) : List Nat → Bool
  | a :: b :: r => s.usable target a (portTo a b) && s.pathOk target (b :: r)
  | _ => true

/-- The route between two Benches (R276): (WP0, WP1, hops). -/
def State.benchRoute (s : State) (src tgt : Nat) : Option (Nat × Nat × Nat) :=
  if s.deadEnd tgt tgt || s.deadEnd tgt src then none
  else if src = tgt then some (tgt, tgt, 0)
  else
    let plain := routePath src tgt tgt tgt
    if s.pathOk tgt plain then some (tgt, tgt, plain.length - 1)
    else
      (List.range 256).foldl (fun best w =>
        let p := routePath src (w / 16) (w % 16) tgt
        let better := match best with | some (_, _, h) => decide (p.length - 1 < h) | none => true
        if better && s.pathOk tgt p then some (w / 16, w % 16, p.length - 1) else best) none

/-- The Benches by which a die 16 to 20 is attached on a route to `target`, with the die's port, over usable links (R276, R277). -/
def State.attached (s : State) (target d : Nat) : List (Nat × Nat) :=
  ((List.range 16).filterMap (fun n =>
    if d = 20 then (if n < 4 then some (n, n) else none) else if quadrant n = d - 16 then some (n, spurPort n) else none)).filter
    (fun x => s.usable target d x.2)

/-- A route of a table entry: leaving port, target or attach Bench, waypoints, hops. -/
structure Route where
  port : Nat
  tgt : Nat
  wp0 : Nat
  wp1 : Nat
  hops : Nat

/-- The better of two routes: fewer hops, the first among equals. -/
def firstShorter (a b : Option Route) : Option Route :=
  match a, b with
  | some x, some y => if y.hops < x.hops then b else a
  | none, _ => b
  | _, none => a

/-- The route that the fabric manager computes from die `src` to die `dst` (R276, R277). -/
def State.computeRoute (s : State) (src dst : Nat) : Option Route :=
  let src := min src 20
  let dst := min dst 20
  if src = dst then some (if src < 16 then ⟨0, src, src, src, 0⟩ else ⟨0, 0, 0, 0, 0⟩)
  else
    let starts := if src < 16 then [(src, 0)] else s.attached dst src
    let ends := if dst < 16 then [dst] else (s.attached dst dst).map (·.1)
    starts.foldl (fun best x => firstShorter best (ends.foldl (fun best e => firstShorter best
      ((s.benchRoute x.1 e).map (fun r => ⟨x.2, e, r.1, r.2.1, r.2.2⟩))) none)) none

/-- A table entry (R289). -/
def routeWord (r : Option Route) : Word :=
  match r with
  | some r => w32 (r.wp0 + 32 * r.wp1 + 1024 * r.tgt + 32768 * r.port + 2 ^ 18 * r.hops + 2 ^ 31)
  | none => 0

/-- The table of a die as the fabric manager computes it. -/
def State.routeTable (s : State) (d : Nat) : List Word := (List.range 23).map (fun t => routeWord (s.computeRoute d t))

/-- A die takes a route table (R289). -/
def State.takeTable (s : State) (d : Nat) (t : List Word) : State :=
  let s := (List.range 23).foldl (fun s i => s.setReg d 0x80 (Off.lnkRt + 4 * i) (t.getD i 0)) s
  s.setReg d 0x80 Off.lnkRtgen (w32 ((s.reg d 0x80 Off.lnkRtgen).toNat + 1))

/-- The dies that carry route tables and work: no Bench that is retired or unpowered, no Stockpile without power. -/
def State.liveDies (s : State) : List Nat := (List.range 21).filter (fun d => decide (d = 20) || (s.uncoreOn d && !(decide (d < 16) && s.isRetired d)))

/-- Some pair of the dies has no route; `skip` leaves a Bench out of the count. -/
def State.unreachable (s : State) (skip : Option Nat) : Bool :=
  let ds := s.liveDies.filter (fun d => some d ≠ skip && !(decide (d < 16) && s.fencedOut d))
  ds.any (fun a => ds.any (fun b => (s.computeRoute a b).isNone))

/-- LNK_BISECT (R279, R290): usable links between rows 1 and 2, and between columns 1 and 2. -/
def State.bisect (s : State) : Nat :=
  let row := (List.range 4).countP (fun x => s.usable 32 (4 + x) portN)
  let col := (List.range 4).countP (fun y => s.usable 32 (4 * y + 1) portE)
  row + 16 * col

/-- The 64 bytes of an RTLOAD flit: 21 entries of 23 bits, VALID, HOPS, PORT, TGT, WP1 and WP0 from bit 22 down. -/
def tableFlit (t : List Word) : List Byte :=
  leBytes 64 ((t.take 21).foldr (fun w acc => fld w.toNat 0 22 + 2 ^ 22 * fld w.toNat 31 1 + 2 ^ 23 * acc) 0)

/-- The table of an RTLOAD flit; dies 21 and 22 are reached as die 20. -/
def flitTable (bs : List Byte) : List Word :=
  let e := fun i => let x := fld (leNat bs) (23 * i) 23; w32 (fld x 0 22 + 2 ^ 31 * fld x 22 1)
  (List.range 23).map (fun i => e (min i 20))

/-- The fabric manager loads every die but those of `skip` (R272, R282): its own at once, every other by RTLOAD. -/
def State.loadRoutes (s : State) (after : Nat) (skip : List Nat) : State :=
  let ds := s.liveDies.filter (fun d => d != 20 && !skip.contains d)
  let t20 := s.routeTable 20
  let ps := ds.map (fun d => (d, s.routeTable d))
  let s := s.takeTable 20 t20
  let s := { s with fm := { loads := ds, after := after } }
  ps.foldl (fun s x => s.send (s.packet 20 x.1 0x22 0 1 0 0 0 (tableFlit x.2))) s

/-- The packets lost at a port when its link goes DOWN (R286): those of its replay buffer that the far end has not received, and those
of its receive buffer, whole or not. DEDUCED: log entry 62. -/
def State.lostAt (s : State) (d port expect : Nat) : Nat :=
  let p := s.port d port
  ((p.replay.dropWhile (fun f => f.seq != expect)).flatMap (·.starts)).length + p.parts.length
    + ((List.range 5).map (fun q => (s.port d q).out.countP (fun x => x.cell.map (·.1) == some port))).sum

/-- A port's buffers emptied: also of the packets of its receive buffer that wait at another port. -/
def State.clearPort (s : State) (d port : Nat) : State :=
  let s := (List.range 5).foldl (fun s q => s.updPort d q (fun p => { p with out := p.out.filter (fun x => x.cell.map (·.1) != some port) })) s
  s.updPort d port (fun p => p.fresh 0)

/-- A link goes DOWN (R262, R286): both ports DOWN, and the packets in its buffers lost and counted. DEDUCED: log entry 62. -/
def State.linkLost (s : State) (d port : Nat) : State :=
  match partner d port with
  | none => s
  | some (e, q) =>
    let n := s.lostAt d port (s.port e q).expect
    let m := s.lostAt e q (s.port d port).expect
    let s := ((s.setLink d port 0).clearPort d port).clearPort e q
    let lost := fun (s : State) (d p n : Nat) => (s.bump d p Off.lnkLost n).raise d p 0x10000
    (lost (lost s d (lnkPage port) n) e (lnkPage q) m).loseWrites

/-- The routes are computed and loaded again while the panel runs (R286). -/
def State.reloadRoutes (s : State) : State := if wbit (s.reg 20 0x80 Off.lnkDisc) 17 then s.loadRoutes s.fm.after [] else s

/-- A link goes DOWN while the panel runs, and the routes follow (R286). -/
def State.linkDown (s : State) (d port : Nat) : State := (s.linkLost d port).reloadRoutes

/-- Every link of a list that is UP or in a lane swap goes DOWN, with one recomputation (R286). -/
def State.linksDown (s : State) (l : List (Nat × Nat)) : State :=
  let l := l.filter (fun x => s.lstate x.1 x.2 == 2 || s.lstate x.1 x.2 == 3)
  if l.isEmpty then s else (l.foldl (fun s x => s.linkLost x.1 x.2) s).reloadRoutes

/-- Every link of a die goes DOWN. -/
def State.portsDown (s : State) (d : Nat) : State := s.linksDown (allPorts.filter (fun x => x.1 == d))

end Sys2Proof.Machine
end

