-- ==== Sys2Proof/Machine/Operands.lean ====
section
/-!
DEFINITION. The operands of Sett instructions: fields of the short forms (R71), general, vector and predicate registers
(R67, R68), the Face store as loads and stores address it (R75), and packed elements in memory (R44).
-/

namespace Sys2Proof.Machine

/-! ### Short-form fields (R71) -/

/-- OP [6:1]. -/
def sfOp (w : Word) : Nat := wfld w 1 6
/-- D [11:7] (S of a store, A of a branch). -/
def sfD (w : Word) : Nat := wfld w 7 5
/-- A [16:12] (B of a branch). -/
def sfA (w : Word) : Nat := wfld w 12 5
/-- B [21:17]. -/
def sfB (w : Word) : Nat := wfld w 17 5
/-- PR [24:22]. -/
def sfPr (w : Word) : Nat := wfld w 22 3
/-- FN [31:25]. -/
def sfFn (w : Word) : Nat := wfld w 25 7
/-- IMM15 [31:17], unsigned. -/
def sfImm15 (w : Word) : Nat := wfld w 17 15

/-- IMM15 as the 64-bit value an instruction adds (R71). -/
def immDword (w : Word) : DWord := BitVec.ofInt 64 (sext 15 (sfImm15 w))

/-! ### Registers -/

/-- A general register; g0 reads 0 (R67). -/
def Core.g (c : Core) (n : Nat) : DWord := if n = 0 then 0 else smGet (fun _ => 0) c.gpr n

/-- A general register written; writes to g0 are discarded (R67). -/
def Core.setG (c : Core) (n : Nat) (v : DWord) : Core :=
  if n = 0 then c else { c with gpr := smSet (fun _ => 0) c.gpr n v }

/-- A predicate register; p0 reads all ones (R67). -/
def Core.p (c : Core) (n : Nat) : BitVec 256 := if n = 0 then BitVec.allOnes 256 else smGet (fun _ => 0) c.pred n

/-- A predicate register written; writes to p0 are discarded (R67). -/
def Core.setP (c : Core) (n : Nat) (v : BitVec 256) : Core :=
  if n = 0 then c else { c with pred := smSet (fun _ => 0) c.pred n v }

/-- The 256 words of a vector register (R68). -/
def Core.v (c : Core) (n : Nat) : List Word := smGetList (fun _ => 0) c.vreg (256 * n) 256

/-- Words of a vector register written from word `j` on; `none` keeps the old word (R68). -/
def setWords (m : SMap Word) (k : Nat) : List (Option Word) → SMap Word
  | [] => m
  | none :: ws => setWords m (k + 1) ws
  | some w :: ws => setWords (smSet (fun _ => 0) m k w) (k + 1) ws

/-- A vector register written in the words that are `some` (R68). -/
def Core.setV (c : Core) (n : Nat) (ws : List (Option Word)) : Core := { c with vreg := setWords c.vreg (256 * n) ws }

/-- The two 16-bit elements of a word, lower-indexed first (R68). -/
def halves (w : Word) : Nat × Nat := (wfld w 0 16, wfld w 16 16)

/-- A word of two 16-bit elements. -/
def ofHalves (lo hi : Nat) : Word := w32 (lo % 65536 + 65536 * (hi % 65536))

/-! ### Stores -/

/-- The size of a unit's own store: a Face store is 8 MiB, the Molt store 2 MiB (R75, R313). -/
def storeSize (u : Nat) : Nat := if u = 6 then 0x200000 else 0x800000

/-- Bit `i` of a byte list, little-endian. -/
def bitAt (bs : List Byte) (i : Nat) : Bool := (bs.getD (i / 8) 0).getLsbD (i % 8)

/-- Element `i` of `w` bits, packed from byte 0 up, the lower-indexed element in the less significant bits (R44). -/
def packedElem (bs : List Byte) (w i : Nat) : Nat := fld (leNat ((bs.drop (i * w / 8)).take ((w + 15) / 8))) (i * w % 8) w

/-- Elements of `w` bits packed into bytes (R44). -/
def packElems (w : Nat) (es : List Nat) : List Byte :=
  leBytes ((es.length * w + 7) / 8) (es.foldr (fun e acc => e % 2 ^ w + 2 ^ w * acc) 0)

/-- Element `i` of a packed tensor of `w`-bit elements at a place, read by an agent. -/
def State.elemAs (s : State) (b ag l w i : Nat) : Nat :=
  fld (s.natAs b ag (l + i * w / 8) ((w + 15) / 8)) (i * w % 8) w

/-- Bytes of `n` elements of `w` bits. -/
def elemBytes (w n : Nat) : Nat := (n * w + 7) / 8

end Sys2Proof.Machine
end

