-- ==== Sys2Proof/Machine/Park.lean ====
section
/-!
DEFINITION. Exceptions, parking and resuming a control core (R82 to R84, R90 to R95, R313, R314). A Molt keeps one
exception record for all its strands, and parks them together.
-/

namespace Sys2Proof.Machine

/-- The strands a Molt runs: 2 ^ MLT_CFG.NSTRL (R313); a Face has one core. -/
def State.strands (s : State) (b u : Nat) : Nat := if u = 6 then 2 ^ s.rfld b 0x90 Off.mltCfg 0 2 else 1

/-- The keys of a unit's cores. -/
def State.coreKeys (s : State) (b u : Nat) : List Nat :=
  if u = 6 then (List.range (s.strands b u)).map (fun k => b * 16 + 8 + k) else [b * 16 + u]

/-- The key of core 0 of a unit, whose program counter PSTAT.PC shows. -/
def mainCore (b u : Nat) : Nat := if u = 6 then b * 16 + 8 else b * 16 + u

/-- FCC_EXC.VALID, or MLT_EXC.VALID (R96, R330). -/
def State.excValid (s : State) (b u : Nat) : Bool := wbit (s.reg b (ctlPage u) Off.fccExc) 16

/-- The Face parks with a cause (R91); a held instruction is left unissued, and a token that its LSYNC has popped
stays popped (R106). DEDUCED: log entry 26. -/
def State.parkUnit (s : State) (b u cause : Nat) : State :=
  let s := (s.coreKeys b u).foldl (fun s k => s.updCore k (fun c => { c with holding := false })) s
  s.updFace b u (fun f => { f with parked := true, cause := cause, waitWindow := 0 })

/-- An exception recorded and taken (R82, R83, R91): with a valid record only MULTI is set; else FCC_EXC, FCC_EXC_PC and
FCC_EXC_VAL are loaded, STAT.FLT and the interrupt bits set, and the core parks with cause 3. -/
def State.exception (s : State) (b u strand code val : Nat) (bank : Bool) (pc : Nat) (long imprecise : Bool) : State :=
  let p := ctlPage u
  if s.excValid b u then s.setFld b p Off.fccExc 18 1 1
  else
    let e := code + 0x10000 + (if imprecise then 0x20000 else 0) + (if long then 0x80000 else 0)
      + (if u = 6 then strand * 0x100000 else 0)
    let s := ((s.setReg b p Off.fccExc (w32 e)).setReg b p Off.fccExcPc (w32 (pc + bank.toNat * 0x20000))).setReg b p
      Off.fccExcVal (w32 val)
    ((s.setFlt b p).raise b p 0x20000).parkUnit b u 3

/-- A precise exception of a core at its own instruction (R82). -/
def State.precise (s : State) (c : CoreId) (code val : Nat) (long : Bool) : State :=
  s.exception (coreBench c) (coreUnit c) (coreStrand c) code val (s.face (coreBench c) (coreUnit c)).bank (s.core (coreKey c)).pc
    long false

/-- An imprecise exception of a queued long form (R82): the entry's own place is recorded. -/
def State.imprecise (s : State) (b u : Nat) (e : QEntry) (code val : Nat) : State :=
  s.exception b u e.strand code val e.bank e.pc true true

/-- A unit queue by name. -/
def Face.queue (f : Face) : QueueId → List QEntry
  | .slab => f.qSlab
  | .chute => f.qChute
  | .weevil => f.qWeevil
  | .hauler => f.qHauler
  | .coll => f.qColl
  | .task => f.qTask

/-- A unit queue replaced. -/
def Face.setQueue (f : Face) (q : QueueId) (l : List QEntry) : Face :=
  match q with
  | .slab => { f with qSlab := l }
  | .chute => { f with qChute := l }
  | .weevil => { f with qWeevil := l }
  | .hauler => { f with qHauler := l }
  | .coll => { f with qColl := l }
  | .task => { f with qTask := l }

/-- The six queues in the order of FCC_QOCC (R96). -/
def allQueues : List QueueId := [.slab, .chute, .weevil, .hauler, .coll, .task]

/-- Every queue of a unit is empty. -/
def Face.queuesEmpty (f : Face) : Bool := allQueues.all (fun q => (f.queue q).isEmpty)

/-- FCC_QOCC (R96): five bits per queue. -/
def Face.qocc (f : Face) : Nat := (allQueues.map (fun q => (f.queue q).length)).foldr (fun n acc => n + 32 * acc) 0

/-- A core fetches and issues: its unit is not parked, no swap waits, it stands on no LSYNC, and, on a Molt, it is one of the
strands in use and has not reached its own PARK (R90, R313). -/
def State.running (s : State) (c : CoreId) : Bool :=
  let f := s.face (coreBench c) (coreUnit c)
  let k := s.core (coreKey c)
  !f.parked && f.swap.isNone && !k.holding && !k.stopped && decide (coreStrand c < s.strands (coreBench c) (coreUnit c))

/-- The instruction word at a core's program counter, from the active bank (R86). -/
def State.fetch (s : State) (c : CoreId) (off : Nat) : Word :=
  let f := s.face (coreBench c) (coreUnit c)
  w32 (leNat (s.bytesAt (loc 5 (coreBench c) (coreUnit c) (f.bank.toNat * 0x20000 + (s.core (coreKey c)).pc + off)) 4))

/-- The four words of a long form at a core's program counter (R76). -/
def State.fetchLong (s : State) (c : CoreId) : List Word := [s.fetch c 0, s.fetch c 4, s.fetch c 8, s.fetch c 12]

/-- The program counter of a core set. -/
def State.setPc (s : State) (c : CoreId) (pc : Nat) : State := s.updCore (coreKey c) (fun k => { k with pc := pc })

/-- A long form stands at the core's program counter (R70). -/
def isLong (w : Word) : Bool := wbit w 0

/-- One core instruction, if the core issues and the word at its program counter belongs to the row.
DESIGN CHOICE: log entry 2. -/
def State.issue (s : State) (c : CoreId) (mine : Word → Bool) (run : Word → State) : State :=
  if s.running c && mine (s.fetch c 0) then run (s.fetch c 0) else s

/-- An instruction that continues in sequence: its faults in the order of R84 after 0x0203 and 0x0204, which the end of the
bank raises (R86); the first found is taken, else `eff` is the effect and the program counter moves on. -/
def State.sequential (s : State) (c : CoreId) (faults : List (Bool × Nat × Nat)) (eff : State) : State :=
  if 0x20000 ≤ (s.core (coreKey c)).pc + 4 then s.precise c 0x0204 0 false
  else match faults.find? (·.1) with
    | some (_, code, val) => s.precise c code val false
    | none => eff.setPc c ((s.core (coreKey c)).pc + 4)

/-- A resume under R93, with the swap of R89 first where it is asked for: `none` when it is refused with 0x0209. The offset
is the given one, or each core's own. DEDUCED: log entry 26. -/
def State.resumeUnit (s : State) (b u : Nat) (swap : Bool) (rpc : Option Nat) : Option State :=
  let f := s.face b u
  if f.parked && !s.excValid b u && f.swap.isNone && !s.qsc b (ctlPage u) then
    let s := (s.coreKeys b u).foldl (fun s k =>
      s.updCore k (fun c => { c with pc := rpc.getD c.pc, stopped := false, holding := false, popped := c.popped && rpc.isNone && !swap })) s
    some (if swap then s.updFace b u (fun f => { f with swap := some ⟨rpc.getD (s.core (mainCore b u)).pc, mainCore b u, true⟩ })
      else s.updFace b u (fun f => { f with parked := false }))
  else none

/-- The core state that Face reset, SRST of the FCC_ or MLT_ page and an accepted enable leave: parked at the boot offset and
bank with cause 0 (R90, R95). DEDUCED: log entry 26. -/
def State.bootCore (s : State) (b u : Nat) : State :=
  let boot := s.reg b (ctlPage u) (if u = 6 then Off.mltBoot else Off.fccBoot)
  let s := (if u = 6 then (List.range 8).map (fun k => b * 16 + 8 + k) else [b * 16 + u]).foldl (fun s k =>
    s.updCore k (fun c => { c with pc := wfld boot 0 17, holding := false, popped := false, stopped := false })) s
  s.updFace b u (fun f => { f with parked := true, cause := 0, swap := none, bank := wbit boot 17, waitWindow := 0 })

end Sys2Proof.Machine
end

