-- ==== Sys2Proof/Machine/Memory.lean ====
section
/-!
DEFINITION. The memories beyond the Face stores (R225 to R256): the controllers with their encryption and ECC, the home
Gallery's cache, prefetched lines, scratch, and reads and writes by an agent, with the speculative overlay.
-/

namespace Sys2Proof.Machine

/-- The outcome of a memory access: a reason code (0: done), the bytes, and the state after it. -/
structure Ans where
  code : Nat
  data : List Byte
  st : State

/-- The first place of the 128-byte line that holds a place (R226). -/
def lineStart (l : Nat) : Nat := l - l % 128

/-- The controller page of a place of tier N or tier C (R254, R256). -/
def ctlPageOf (l : Nat) : Nat := if locRegion l = 1 then 0x74 + locUnit l else 0x10 + locUnit l

/-- The identity of the key under which a line is stored: 0 for KCTX 0, else the context with the number of its key, which
changes whenever Carapace draws a new one or erases it (R247, R365). PRESUMED: log entry 52. -/
def State.keyId (s : State) (kctx : Nat) : Nat :=
  if kctx = 0 then 0 else kctx + 128 * smGet (fun _ => 0) s.keyGen kctx

/-- The 64 bytes of a key by its identity: Carapace's random generator drew them. PRESUMED: log entry 52. -/
def keyBytes (id : Nat) : List Byte := (List.range 64).map (fun i => Config.randomByte (id / 128) (64 * (id % 128) + i))

/-- The data-unit number of a line (R247): DIE × 2^43 + UNIT × 2^41 + PA[47:7]. PRESUMED: log entry 52. -/
def lineUnit (line : Nat) : Nat := locDie line * 2 ^ 43 + locUnit line * 2 ^ 41 + locAddr line / 128

/-- What a controller returns for a line stored under one key and read under another (R247): the stored ciphertext decrypted under the
reader's key; a key of identity 0 stands for no encryption. PRESUMED: log entry 52. -/
def otherKey (line stored reader : Nat) (plain : List Byte) : List Byte :=
  let c := if stored = 0 then plain else xts false (keyBytes stored) (lineUnit line) plain
  if reader = 0 then c else xts true (keyBytes reader) (lineUnit line) c

/-- An uncorrectable error recorded by its controller (R232, R251). -/
def State.uncorrectable (s : State) (l : Nat) : State :=
  let d := locDie l
  let p := ctlPageOf l
  let a := locAddr l
  let s := s.bump d p Off.hbmUecc 1
  let s := if wbit (s.reg d p Off.hbmUaddrHi) 31 then s
    else (s.setReg d p Off.hbmUaddrLo (w32 a)).setReg d p Off.hbmUaddrHi (w32 (0x80000000 + fld a 32 4))
  s.raise d p 0x20000

/-- A controller reads a line (R232, R247, R251): with ECC = 1, an error that it corrects is counted, and a line that it cannot correct
ends with 0x0909 and no data; a line stored under another key returns bytes unrelated to its plaintext.
DESIGN CHOICE: log entry 57. -/
def State.ctlRead (s : State) (line kctx : Nat) : Ans :=
  let d := locDie line
  let p := ctlPageOf line
  let ecc := wbit (s.reg d p Off.hbmCfg) 0
  let found := Config.eccFinds s.fresh
  let s := (s.bump d p Off.hbmRdl 1).draw
  if ecc && (smGet (fun _ => false) s.badLines line || found == 2) then ⟨0x0909, [], s.uncorrectable line⟩
  else
    let s := if ecc && found == 1 then s.bump d p Off.hbmCecc 1 else s
    let id := smGet (fun _ => 0) s.keyTags line
    ⟨0, if id = s.keyId kctx then s.bytesAt line 128 else otherKey line id (s.keyId kctx) (s.bytesAt line 128), s⟩

/-- A controller writes a whole line, encrypted under its key (R247). -/
def State.ctlWrite (s : State) (line kctx : Nat) (data : List Byte) : State :=
  let s := (s.bump (locDie line) (ctlPageOf line) Off.hbmWrl 1).putBytes line data
  { s with keyTags := smSet (fun _ => 0) s.keyTags line (s.keyId kctx), badLines := smSet (fun _ => false) s.badLines line false }

/-- Bytes put over part of a list. -/
def overlay (base : List Byte) (off : Nat) (bs : List Byte) : List Byte := base.take off ++ bs ++ base.drop (off + bs.length)

/-- A controller carries out a write (R248): a whole line at once, a part of a line by reading, merging and writing back. -/
def State.ctlMerge (s : State) (l kctx : Nat) (bs : List Byte) : Ans :=
  let line := lineStart l
  if bs.length = 128 && l = line then ⟨0, [], s.ctlWrite line kctx bs⟩
  else
    let r := s.ctlRead line kctx
    if r.code ≠ 0 then ⟨r.code, [], r.st⟩
    else ⟨0, [], (r.st.bump (locDie line) (ctlPageOf line) Off.hbmRmw 1).ctlWrite line kctx (overlay r.data (l - line) bs)⟩

/-! ### The Gallery's cache (R233 to R235) -/

/-- Cache ways of a Bench's Gallery: none while its page is disabled (R236). -/
def State.cacheWays (s : State) (b : Nat) : Nat := if s.en b 0x70 then s.rfld b 0x70 Off.galWays 8 5 else 0

/-- The held line at a place. DEDUCED: log entry 51. -/
def State.galLine (s : State) (b line : Nat) (pf : Bool) : Option GLine :=
  (s.bench b).lines.find? (fun g => g.line == line && g.pf == pf)

/-- A line written back to its stack if it is dirty. -/
def State.writeBack (s : State) (g : GLine) : State := if g.dirty then s.ctlWrite g.line g.kctx g.data else s

/-- A line taken out of the Gallery. -/
def State.dropLine (s : State) (b : Nat) (g : GLine) : State :=
  s.updBench b (fun x => { x with lines := x.lines.filter (fun h => !(h.line == g.line && h.pf == g.pf)) })

/-- The least recently used line of a set is evicted when the set is full, or when prefetched lines fill their share of it and
the new line is one (R233, R240). DESIGN CHOICE: log entry 53. -/
def State.makeRoom (s : State) (b line : Nat) (pf : Bool) : State :=
  let inSet := (s.bench b).lines.filter (fun g => Config.cacheSet g.line % 65536 == Config.cacheSet line % 65536)
  let share := s.rfld b 0x70 Off.galPf 0 5
  let pfs := inSet.filter (·.pf)
  if pf && share != 0 && decide (share ≤ pfs.length) then
    match pfs with
    | g :: _ => s.dropLine b g
    | [] => s
  else if s.cacheWays b ≤ inSet.length then
    match inSet with
    | g :: _ => (s.writeBack g).dropLine b g
    | [] => s
  else s

/-- A line put in the Gallery as the most recently used. -/
def State.putLine (s : State) (b : Nat) (g : GLine) : State :=
  (s.dropLine b g).updBench b (fun x => { x with lines := x.lines ++ [g] })

/-- A stack's line as its home Gallery answers (R234): a hit, or a miss that allocates. DEDUCED: log entry 51. -/
def State.homeLine (s : State) (line kctx : Nat) : Ans :=
  let b := locDie line
  match s.galLine b line false with
  | some g => ⟨0, g.data, (s.bump b 0x70 Off.galHit 1).putLine b g⟩
  | none =>
    if s.cacheWays b = 0 then s.ctlRead line kctx
    else
      let r := (s.bump b 0x70 Off.galMiss 1).ctlRead line kctx
      if r.code ≠ 0 then r
      else ⟨0, r.data, (r.st.makeRoom b line false).putLine b ⟨line, r.data, false, kctx, false⟩⟩

/-- A write to a stack, taken by its home Gallery, or carried out by the controller while there is no cache; a line kept through the
Gallery's disable is then given up (R235, R236). DESIGN CHOICE: log entry 53. -/
def State.homeWrite (s : State) (l kctx : Nat) (bs : List Byte) : Ans :=
  let line := lineStart l
  let b := locDie line
  if s.cacheWays b = 0 then
    (s.updBench b (fun x => { x with lines := x.lines.filter (fun g => g.line != line || g.pf) })).ctlMerge l kctx bs
  else
    let r := if bs.length = 128 && (s.galLine b line false).isNone then
        (⟨0, bs, (s.bump b 0x70 Off.galMiss 1).makeRoom b line false⟩ : Ans) else s.homeLine line kctx
    if r.code ≠ 0 then ⟨r.code, [], r.st⟩
    else ⟨0, [], r.st.putLine b ⟨line, overlay r.data (l - line) bs, true, kctx, false⟩⟩

/-- A prefetched copy of the requester's Bench, where one is held (R234). -/
def State.prefetched (s : State) (b line : Nat) : Option GLine :=
  if locRegion line = 2 || (locRegion line = 1 && locDie line ≠ b) then s.galLine b line true else none

/-- Memory as it stands at its target: a part of one line (R234, R235). -/
def State.targetRead (s : State) (l n kctx : Nat) : Ans :=
  let line := lineStart l
  match locRegion l with
  | 1 => let r := s.homeLine line kctx; ⟨r.code, (r.data.drop (l - line)).take n, r.st⟩
  | 2 => let r := s.ctlRead line kctx; ⟨r.code, (r.data.drop (l - line)).take n, r.st⟩
  | _ => ⟨0, s.bytesAt l n, s⟩

/-- A write at its target: a part of one line (R235, R248). -/
def State.targetWrite (s : State) (l kctx : Nat) (bs : List Byte) : Ans :=
  match locRegion l with
  | 1 => s.homeWrite l kctx bs
  | 2 => s.ctlMerge l kctx bs
  | _ => ⟨0, [], s.putBytes l bs⟩

/-- A write-through updates a prefetched copy in the writer's Gallery (R235). -/
def State.updatePrefetched (s : State) (b l : Nat) (bs : List Byte) : State :=
  match s.prefetched b (lineStart l) with
  | some g => s.putLine b { g with data := overlay g.data (l - lineStart l) bs }
  | none => s

/-! ### Reads and writes by an agent (R322, R323, R326) -/

/-- Held bytes put over bytes read. -/
def overHeld (m : SMap (Option Byte)) (l : Nat) : List Byte → List Byte
  | [] => []
  | x :: xs => (smGet (fun _ => none) m l).getD x :: overHeld m (l + 1) xs

/-- A read of a part of one line by an agent of Bench `b`: a prefetched copy or the target, under the held bytes. -/
def State.readAs (s : State) (b ag l n kctx : Nat) : Ans :=
  let line := lineStart l
  let r := match s.prefetched b line with
    | some g => (⟨0, (g.data.drop (l - line)).take n, (s.bump b 0x70 Off.galHit 1).putLine b g⟩ : Ans)
    | none => s.targetRead l n kctx
  if s.seesHeld b ag then ⟨r.code, overHeld (s.bench b).held l r.data, r.st⟩ else r

/-- What becomes of a write by an agent (R322, R323, R327): 0 it goes to memory, 1 it is held, 2 it is dropped. -/
def State.writeWay (s : State) (b ag l : Nat) : Nat :=
  let st := s.taskState b
  let molt := locRegion l == 4 && locUnit l == 6 && locDie l == b
  if molt then 0
  else if st = 1 && s.inTask b ag then 1
  else if st = 3 && s.inTask b ag then 2
  else 0

/-- Bytes held by the open task, with the key context of their line. -/
def State.hold (s : State) (b l kctx : Nat) (bs : List Byte) : State :=
  s.updBench b (fun x => { x with held := holdBytes x.held l bs, heldKey := smSet (fun _ => 0) x.heldKey (lineStart l) kctx })

/-- A write of a part of one line by an agent of Bench `b`. -/
def State.writeAs (s : State) (b ag l kctx : Nat) (bs : List Byte) : Ans :=
  match s.writeWay b ag l with
  | 1 => ⟨0, [], s.hold b l kctx bs⟩
  | 2 => ⟨0, [], s.bump b 0x98 Off.spcDropw 1⟩
  | _ => (s.updatePrefetched b l bs).targetWrite l kctx bs

/-- The pieces of a byte range within its 128-byte lines: place and length. -/
def linePieces : Nat → Nat → Nat → List (Nat × Nat)
  | 0, _, _ => []
  | fuel + 1, l, n =>
    if n = 0 then []
    else let k := min n (128 - l % 128); (l, k) :: linePieces fuel (l + k) (n - k)

/-! ### Atomics (R243 to R246) -/

/-- The size of an atomic type: INT32, INT64, FP32, BF16. -/
def atomSize (ty : Nat) : Nat := if ty = 1 then 8 else if ty = 3 then 2 else 4

/-- Min (`mx` false) or max of two FP32 or BF16 values of exact value: −0 is less than +0, a NaN gives the canonical NaN. -/
def atomPick (l : FLayout) (mx : Bool) (a b : Nat) : Nat :=
  let x := decodeFloat l a
  let y := decodeFloat l b
  let less := Num.lt x y || (Num.eqv x y && nbit a (l.eb + l.mb) && !nbit b (l.eb + l.mb))
  if x == .nan || y == .nan then (toFloat l true .nearest false 0 .nan).1 else if less == mx then b else a

/-- One atomic step on an old value (R244): AOP 0 fetch-add, 1 min, 2 max, 3 compare-and-swap. -/
def atomNew (aop ty old opnd cmpv : Nat) : Nat :=
  let n := 8 * atomSize ty
  if aop = 3 then (if old = cmpv then opnd else old)
  else if ty ≤ 1 then
    if aop = 0 then (old + opnd) % 2 ^ n
    else if decide (sext n old < sext n opnd) == (aop == 2) then opnd else old
  else
    let l := if ty = 2 then lay32 else lay16b
    if aop = 0 then (toFloat l true .nearest false 0 (Num.add (decodeFloat l old) (decodeFloat l opnd))).1
    else atomPick l (aop == 2) old opnd

/-- An atomic applied at its scratch (R244, R245): the old value, and the state after it, counted in GAL_ATOM. -/
def State.atomApply (s : State) (l aop ty opnd cmpv : Nat) : Nat × State :=
  let n := atomSize ty
  let old := leNat (s.bytesAt l n)
  (old, (s.putBytes l (leBytes n (atomNew aop ty old opnd cmpv))).bump (locDie l) 0x70 Off.galAtom 1)

end Sys2Proof.Machine
end

