-- ==== Sys2Proof/Machine/Requests.lean ====
section
/-!
DEFINITION. The request table of a Bench (R229 to R231): classes, guarantees, the bank cap, and when a request must wait.
-/

namespace Sys2Proof.Machine

/-- The class of R230 that a job's slots count for: its Face, or 6 for the Bench agents. -/
def jobClass (key : Nat) : Nat := if key < 16 then key else if key - 16 < 6 then key - 16 else 6

/-- The bank of R226 that a place counts on, with its tier, die and unit; scratch counts as unit 2; 0 for a store. -/
def bankOf (l : Nat) : Nat :=
  let d := locDie l
  let a := locAddr l
  match locRegion l with
  | 1 => 1 + ((d * 4 + locUnit l) * 2 + 0) * 4096 + fld a 7 11
  | 2 => 1 + ((d * 4 + locUnit l) * 2 + 1) * 4096 + fld a 7 7
  | 3 => 1 + ((d * 4 + 2) * 2 + 0) * 4096 + fld a 6 6
  | _ => 0

/-- GAL_HOT's TIER, DIE, UNIT and BANK of a bank (R253). -/
def hotWord (k : Nat) : Nat :=
  let x := (k - 1) / 4096
  (x % 2) * 2 ^ 30 + (x / 8) * 2 ^ 25 + (x / 2 % 4) * 2 ^ 23 + (k - 1) % 4096

/-- GAL_BANKCAP.CAP in force; the reset value while the Gallery is disabled (R231, R236). -/
def State.bankCap (s : State) (b : Nat) : Nat := if s.en b 0x70 then s.rfld b 0x70 Off.galBankcap 0 11 else 1024

/-- The slots of a class that are guaranteed (R230). -/
def State.guaranteed (s : State) (b cls : Nat) : Nat :=
  if s.en b 0x70 then s.rfld b 0x70 Off.galRtmin (if cls = 6 then 16 else 0) 12 else 0

/-- Slots that a class uses. -/
def State.slotsUsed (s : State) (b cls : Nat) : Nat := (s.bench b).slots.countP (fun t => jobClass t.job == cls)

/-- A slot is free for a class: one of its guaranteed slots, or a shared one (R229, R230). -/
def State.slotFree (s : State) (b cls : Nat) : Bool :=
  let g := s.guaranteed b
  let u := s.slotsUsed b
  decide (u cls < g cls) ||
    decide ((List.range 7).foldl (fun n c => n + (u c - g c)) 0 + (List.range 7).foldl (fun n c => n + g c) 0 < 16384)

/-- The bank of a request is at its cap (R231). -/
def State.capped (s : State) (b bank : Nat) : Bool :=
  bank != 0 && decide (s.bankCap b ≤ (s.bench b).slots.countP (fun t => t.bank == bank))

/-- The lowest slot number that is not in use, and that no packet of an earlier request still names. DEDUCED: log entry 59. -/
def State.freeTag (s : State) (b : Nat) : Nat :=
  let used := (s.bench b).slots.map (·.tag) ++ (s.flying.filter (fun p => p.sdie.toNat == b || p.ddie.toNat == b)).map (·.tag.toNat)
  (firstBelow 16384 (fun t => !used.contains t)).getD 0

/-- GAL_RTPEAK follows the slots in use, counting one more that a request takes (R253). -/
def State.notePeak (s : State) (b : Nat) : State :=
  let n := (s.bench b).slots.length + 1
  if (s.reg b 0x70 Off.galRtpeak).toNat < n then s.setReg b 0x70 Off.galRtpeak (w32 n) else s

/-- A request is first held by the bank cap: GAL_HOT, GAL_HOTCNT and IRQ_STAT.BLK.HOT (R231). DESIGN CHOICE: log entry 56. -/
def State.noteHot (s : State) (b bank : Nat) : State :=
  let s := (s.bump b 0x70 Off.galHotcnt (Config.cyclesOfTick b s.fresh)).draw
  if wbit (s.reg b 0x70 Off.galHot) 31 then s else (s.setReg b 0x70 Off.galHot (w32 (0x80000000 + hotWord bank))).raise b 0x70 0x10000

/-- A place is of a store of the own Bench: no request leaves the Bench for it (R227, R229). DEDUCED: log entry 59. -/
def ownStore (b l : Nat) : Bool := locDie l == b && (locRegion l == 4 || locRegion l == 5 || locRegion l == 6)

/-- Requests wait while the ways of the target's Gallery are being cleared (R236). -/
def State.galleryWaits (s : State) (l : Nat) : Bool := (locRegion l == 1 || locRegion l == 3) && (s.bench (locDie l)).clearing

/-- A request of a class to a place must wait: ways being cleared, no slot free, or its bank at the cap (R229 to R231, R236).
DEDUCED: log entry 59. -/
def State.mustHold (s : State) (b cls l : Nat) : Bool :=
  !ownStore b l && ((s.bench b).clearing || !s.slotFree b cls || s.capped b (bankOf l))

/-! ### Requests that are answered within an event

The Weevil, the collectives, the Molt and the READ and WRITE commands read and write at virtual addresses; the model carries out all
the requests of such an access within one event, each taking its slot and giving it back. DEDUCED: log entry 59. -/

/-- The codes from this one on say that such an access must wait, and for what: the whole access is then put off. -/
abbrev waitCode : Nat := 0x10000

/-- The answer of an access that must wait at a place: for a slot, for its bank, or for room among the speculative lines.
DEDUCED: log entry 59. -/
def State.waitAns (s : State) (b l : Nat) (stall : Bool) : Ans :=
  ⟨waitCode + (if stall then 2 ^ 40 else if s.capped b (bankOf l) then bankOf l else 0), [], s⟩

/-- What waiting leaves: the hold recorded in GAL_HOT (R231), or the stall of R324. -/
def State.noteWait (s : State) (b code : Nat) : State :=
  if code = waitCode then s else if code = waitCode + 2 ^ 40 then s.noteStall b else s.noteHot b (code - waitCode)

end Sys2Proof.Machine
end

