-- ==== Sys2Proof/Machine/Xlt.lean ====
section
/-!
DEFINITION. Translation and protection (R215 to R219): the walk, the translations held, the checks of an access, and whole
accesses of an agent at a context virtual address.
-/

namespace Sys2Proof.Machine

/-- Fields of a translation entry (R216). -/
def enV (e : Nat) : Bool := nbit e 0
/-- LEAF. -/
def enLeaf (e : Nat) : Bool := nbit e 1
/-- W. -/
def enW (e : Nat) : Bool := nbit e 2
/-- SRO. -/
def enSro (e : Nat) : Bool := nbit e 3
/-- KIND. -/
def enKind (e : Nat) : Nat := fld e 4 2
/-- DIE. -/
def enDie (e : Nat) : Nat := fld e 6 5
/-- UNIT. -/
def enUnit (e : Nat) : Nat := fld e 11 2
/-- ADDR, as a byte address. -/
def enAddr (e : Nat) : Nat := fld e 13 35 * 0x2000
/-- KCTX. -/
def enKctx (e : Nat) : Nat := fld e 56 7

/-- A leaf entry for a page of 2 ^ `bits` bytes is malformed, or names no memory of its KIND (R217). DEDUCED: log entry 50. -/
def leafMalformed (e bits : Nat) : Bool :=
  fld e 48 8 != 0 || nbit e 63 || enKind e == 3 || enAddr e % 2 ^ bits != 0
    || (enKind e == 0 && (decide (15 < enDie e) || decide (1 < enUnit e) || decide (2 ^ 36 ≤ enAddr e)))
    || (enKind e == 1 && (decide (enDie e < 16) || decide (19 < enDie e) || decide (2 ^ 36 ≤ enAddr e)))
    || (enKind e == 2 && (decide (15 < enDie e) || enUnit e != 0 || decide (2 ^ 27 ≤ enAddr e)))

/-- A level-1 entry that names a level-2 table is malformed (R216, R217): its DIE, UNIT and ADDR must name a memory of its KIND too.
DEDUCED: log entry 50. -/
def tableMalformed (e : Nat) : Bool :=
  fld e 48 8 != 0 || nbit e 63 || enKind e == 3 || decide (1 < enUnit e) || decide (2 ^ 36 ≤ enAddr e)
    || (enKind e == 0 && decide (15 < enDie e)) || (enKind e == 1 && (decide (enDie e < 16) || decide (19 < enDie e)))
    || (enKind e == 2 && (decide (15 < enDie e) || enUnit e != 0 || decide (2 ^ 27 ≤ enAddr e)))

/-- An entry of a table in tier N of the own Bench, read with KCTX 0 through the home Gallery (R216). -/
def State.readEntry (s : State) (b stack addr : Nat) : Ans := s.targetRead (loc 1 b stack addr) 8 0

/-- The reads of a walk (R217): the leaf entry with the number of its page's offset bits, or `none` for no mapping.
DEDUCED: log entry 50. -/
def State.walkPath (s : State) (b va : Nat) : Option (Nat × Nat) × State :=
  if s.rfld b 0x78 Off.xltLim 0 15 * 2 ^ 30 ≤ va ∨ 2 ^ 44 ≤ va then (none, s)
  else
    let root := s.reg b 0x78 Off.xltRoot
    let r1 := s.readEntry b (wfld root 19 1) (wfld root 0 19 * 2 ^ 17 + 8 * (va / 2 ^ 30))
    let e1 := leNat r1.data
    if r1.code ≠ 0 then (none, r1.st)
    else if enV e1 && !enLeaf e1 then
      if tableMalformed e1 then (none, r1.st)
      else
        let r2 := r1.st.readEntry b (enUnit e1) (enAddr e1 + 8 * (va / 2 ^ 21 % 512))
        let e2 := leNat r2.data
        if r2.code ≠ 0 || !enLeaf e2 || !enV e2 || leafMalformed e2 21 then (none, r2.st) else (some (e2, 21), r2.st)
    else if !enV e1 || leafMalformed e1 30 then (none, r1.st)
    else (some (e1, 30), r1.st)

/-- The walk of R217, counted in XLT_MISS and XLT_WALK. DEDUCED: log entry 50. DESIGN CHOICE: log entry 56. -/
def State.walk (s : State) (b va : Nat) : Option (Nat × Nat) × State :=
  let r := s.walkPath b va
  (r.1, ((r.2.bump b 0x78 Off.xltMiss 1).bump b 0x78 Off.xltWalk (Config.cyclesOfTick b s.fresh)).draw)

/-- The translation held for an address (R219): entry and page bits. -/
def State.heldXlt (s : State) (b va : Nat) : Option (Nat × Nat) :=
  match (s.bench b).tlb.find? (fun t => t.1 == va / 2 ^ t.2.1) with
  | some t => some (t.2.2.toNat, t.2.1)
  | none => none

/-- A walk's mapping is held, the oldest of 2,048 giving way (R219). -/
def State.keepXlt (s : State) (b va e bits : Nat) : State :=
  s.updBench b (fun x =>
    let l := x.tlb.filter (fun t => !(t.1 == va / 2 ^ bits && t.2.1 == bits))
    { x with tlb := (if 2048 ≤ l.length then l.drop 1 else l) ++ [(va / 2 ^ bits, bits, BitVec.ofNat 64 e)] })

/-- The place that an entry gives an address. -/
def entryPlace (e bits va : Nat) : Nat :=
  let a := enAddr e + va % 2 ^ bits
  match enKind e with
  | 0 => loc 1 (enDie e) (enUnit e) a
  | 1 => loc 2 (enDie e) (enUnit e) a
  | _ => loc 3 (enDie e) 0 a

/-- The target of an entry is unavailable: its Bench or Stockpile is retired, fenced, unpowered, or its page is disabled
(R218, R257). -/
def State.targetOff (s : State) (b e : Nat) : Bool :=
  let d := enDie e
  match enKind e with
  | 0 => s.benchGone b d || !s.en d (0x74 + enUnit e)
  | 1 => !s.uncoreOn d || !s.en d 0x00 || !s.en d (0x10 + enUnit e)
  | _ => s.benchGone b d || !s.en d 0x70

/-- Scratch bytes of a Bench's Gallery (R233, R236). -/
def State.scratchSize (s : State) (b : Nat) : Nat := if s.en b 0x70 then s.rfld b 0x70 Off.galWays 0 5 * 0x800000 else 0

/-- The checks of an access through an entry, lowest code first (R218, R257); 0 where it passes; 0x0A13 where no route leads to
the target (R286). -/
def State.accessCode (s : State) (b e bits va : Nat) (wr : Bool) : Nat :=
  let own := s.benchCtx b
  if wr && !enW e then 0x0902
  else if wr && enSro e then 0x0903
  else if enKind e < 2 && !(enKctx e == own || (enKctx e == 0 && enSro e)) then 0x0904
  else if (enKind e == 0 && s.benchCtx (enDie e) != own && !(enSro e && enKctx e == 0)) || (enKind e == 2 && s.benchCtx (enDie e) != own) then 0x0905
  else if s.targetOff b e then 0x0906
  else if enKind e == 2 && decide (s.scratchSize (enDie e) ≤ enAddr e + va % 2 ^ bits) then 0x0907
  else if !s.routed b (enDie e) then 0x0A13
  else 0

/-- Why an agent's access stops: the codes of translation and protection are recorded in XLT_FAULT too (R218, R257), and a missing
route in LNK_FLOG (R286, R291). DEDUCED: log entry 50. -/
def State.xltFault (s : State) (b src code va : Nat) : State :=
  if code = 0x0A13 then s.fabricLog b code
  else if 0x0901 ≤ code && code ≤ 0x0907 then
    let s := if wbit (s.reg b 0x78 Off.xltFault) 31 then s
      else ((s.setReg b 0x78 Off.xltFault (w32 (0x80000000 + src * 0x10000 + code))).setReg b 0x78 Off.xltFaultVaLo (w32 va)).setReg b 0x78
        Off.xltFaultVaHi (w32 (va / 2 ^ 32))
    (s.raise b 0x78 0x10000).setFlt b 0x78
  else s

/-- A translated address: a code (0: done), the place and the key context. -/
structure Xlat where
  code : Nat
  place : Nat
  kctx : Nat
  st : State

/-- Translate an address, walking where no translation is held, and check the access (R215 to R219). -/
def State.xlate (s : State) (b va : Nat) (wr : Bool) : Xlat :=
  if !s.en b 0x78 then ⟨0x0901, 0, 0, s⟩
  else
    let r := match s.heldXlt b va with
      | some e => (some e, s)
      | none =>
        let w := s.walk b va
        match w.1 with
        | some e => (some e, w.2.keepXlt b va e.1 e.2)
        | none => (none, w.2)
    match r.1 with
    | none => ⟨0x0901, 0, 0, r.2⟩
    | some e =>
      let c := r.2.accessCode b e.1 e.2 va wr
      ⟨c, entryPlace e.1 e.2 va, enKctx e.1, r.2⟩

/-- A request of an agent of a class to a translated place, a read of `n` bytes within one line: it waits where it can take no
slot; where the translation or the access faults, the code and the address. `allow` says which places the agent takes (R174). -/
def State.readVia (s : State) (b ag cls va n : Nat) (allow : Nat → Bool) : Ans :=
  let x := s.xlate b va false
  if x.code ≠ 0 then ⟨x.code, leBytes 8 va, x.st⟩
  else if !allow x.place then ⟨0x0908, leBytes 8 va, x.st⟩
  else if x.st.mustHold b cls x.place || x.st.galleryWaits x.place then x.st.waitAns b x.place false
  else
    let r := (x.st.notePeak b).readAs b ag x.place n x.kctx
    if r.code ≠ 0 then ⟨r.code, leBytes 8 va, r.st⟩ else r

/-- Virtual pieces of a range, cut at 128-byte lines. -/
def vaRead (s : State) (b ag cls : Nat) (allow : Nat → Bool) : List (Nat × Nat) → Ans
  | [] => ⟨0, [], s⟩
  | (va, n) :: ps =>
    let r := s.readVia b ag cls va n allow
    if r.code ≠ 0 then r
    else
      let t := vaRead r.st b ag cls allow ps
      if t.code ≠ 0 then t else ⟨0, r.data ++ t.data, t.st⟩

/-- A read of `n` bytes at a virtual address by an agent of a class of R230, whose requests the model answers within the event: the
bytes, or a code with the faulting address as its data. DEDUCED: log entry 59. -/
def State.vread (s : State) (b ag cls va n : Nat) : Ans := vaRead s b ag cls (fun _ => true) (linePieces (n / 128 + 2) va n)

/-- A write of bytes in pieces; one that is held waits for room (R324). -/
def vaWrite (s : State) (b ag cls : Nat) : List (Nat × Nat) → List Byte → Ans
  | [], _ => ⟨0, [], s⟩
  | (va, n) :: ps, bs =>
    let x := s.xlate b va true
    if x.code ≠ 0 then ⟨x.code, leBytes 8 va, x.st⟩
    else
      let own := x.st.writeWay b ag x.place != 0
      if own && x.st.storeStalls b ag [(x.place, bs.take n)] then x.st.waitAns b x.place true
      else if !own && (x.st.mustHold b cls x.place || x.st.galleryWaits x.place) then x.st.waitAns b x.place false
      else
        let r := (if own then x.st else x.st.notePeak b).writeAs b ag x.place x.kctx (bs.take n)
        if r.code ≠ 0 then ⟨r.code, leBytes 8 va, r.st⟩ else vaWrite r.st b ag cls ps (bs.drop n)

/-- A write at a virtual address, as `vread`. DEDUCED: log entry 59. -/
def State.vwrite (s : State) (b ag cls va : Nat) (bs : List Byte) : Ans := vaWrite s b ag cls (linePieces (bs.length / 128 + 2) va bs.length) bs

/-- The invalidation of R219: every translation is discarded, the walks in progress are marked, and IBUSY stands until they have
ended. -/
def State.xltInvalidate (s : State) (b : Nat) : State :=
  s.updBench b (fun x => { x with tlb := [], invBusy := true,
                                  jobs := x.jobs.map (fun e => (e.1, e.2.map (fun j => { j with stale := j.walk.isSome }))) })

/-- XLT_INV_DONE (R219): IBUSY clears once every walk that began before the write has ended. -/
def execXltInvDone (b : BenchId) (s : State) : Host.Outcome State Fault Refusal :=
  .next (if (s.bench b).invBusy && !(s.bench b).jobs.any (fun e => match e.2 with | some j => j.stale | none => false) then
    s.updBench b (fun x => { x with invBusy := false }) else s)

end Sys2Proof.Machine
end

