-- ==== Sys2Proof/Machine/Transfer.lean ====
section
/-!
DEFINITION. Transfers: the accesses of a Hauler descriptor, of an atomic batch and of a prefetch, carried out in their order
(R205, R244, R240), with the request table (R229 to R232) and the request and response packets (R265, R266). A transfer
goes on until it is done, stops on a fault, or waits for a walk, an answer, or a slot. Jobs of a Bench are keyed 0 to 5 for
the Face Haulers, 6 for the Bench Hauler, and 16 + unit for the atomic batch or prefetch of a unit's collective queue.
-/

namespace Sys2Proof.Machine

/-- A job of a Bench. -/
def State.job (s : State) (b key : Nat) : Option Job := smGet (fun _ => none) (s.bench b).jobs key

/-- A job replaced, or removed. -/
def State.setJob (s : State) (b key : Nat) (j : Option Job) : State :=
  s.updBench b (fun x => { x with jobs := smSet (fun _ => none) x.jobs key j })

/-- The task agent of a job (R320): a Face Hauler is its Face's, then the Bench Hauler; batches are the collective unit's. -/
def jobAgent (key : Nat) : Nat := if key < 6 then key else if key = 6 then 6 else 8

/-- XLT_FAULT.SRC of a job that a Face issued (R223). -/
def jobSrc (key issuer : Nat) : Nat := if key < 6 then key else if key = 6 then 8 + issuer else 24 + (key - 16)

/-! ### Requests -/

/-- The page of a Hauler: Face Haulers 0x60 on, the Bench Hauler 0x66 (R222). -/
def hlrPage (key : Nat) : Nat := 0x60 + key

/-- The AUX field and word 1 by which the model's requests name a place (R265): the memory kind in AUX[2:1] (0 stack or
package, 1 scratch, 2 store), a store's Face in AUX[5:3], and UNIT, KCTX and the address in word 1. -/
def requestWords (l kctx : Nat) : Nat × Nat :=
  match locRegion l with
  | 1 | 2 => (0, locAddr l + locUnit l * 2 ^ 48 + kctx * 2 ^ 50)
  | 3 => (2, locAddr l + kctx * 2 ^ 50)
  | _ => (4 + 8 * locUnit l, locAddr l)

/-- The place that a request packet names. DEDUCED: log entry 106. -/
def packetPlace (p : Packet) : Nat :=
  let d := p.ddie.toNat
  let a := fld p.word1.toNat 0 48
  match fld p.aux.toNat 1 2 with
  | 0 => loc (if d < 16 then 1 else 2) d (fld p.word1.toNat 48 2) a
  | 1 => loc 3 d 0 a
  | _ => loc 4 d (fld p.aux.toNat 3 3) a

/-- Code of a response status (R266). -/
def stsCode (sts : Nat) : Nat :=
  match sts with
  | 1 => 0x0909
  | 2 => 0x090A
  | 3 => 0x0906
  | _ => 0x0A13

/-- Status of a code (R266). -/
def codeSts (code : Nat) : Nat := if code = 0 then 0 else if code = 0x0909 then 1 else if code = 0x090A then 2 else 3

/-- The bytes of WRREQ data flits with LASTB: a whole number of flits, padded (R265). -/
def flits (bs : List Byte) : List Byte := padTo (64 * ceilDiv bs.length 64) 0 bs

/-- A request put on its way: the slot taken and the packet sent, also to the own Gallery and the own stacks (R229, R266). A fault of
it records the element's position and the address. DEDUCED: log entry 59. -/
def State.sendRequest (s : State) (b key l n kctx ty elem addr : Nat) (wr : Bool) (data : List Byte) : Nat × State :=
  let tag := s.freeTag b
  let w := requestWords l kctx
  let s := (s.notePeak b).updBench b (fun x => { x with slots := x.slots ++
    [{ tag := tag, job := key, bank := bankOf l, place := l, len := n, tiered := locRegion l == 1 || locRegion l == 2, write := wr,
       kctx := kctx, elem := elem, addr := addr }] })
  (tag, s.send (s.packet b (locDie l) ty 0 tag 0 (w.1 + if 64 < l % 64 + n && !wr then 1 else 0)
    (w.2 + (if wr then (data.length % 64) * 2 ^ 57 else 0)) (flits data)))

/-! ### One access -/

/-- How an access ends: done, waiting (and for what), or a fault at an address. -/
inductive Adv where
  | go (s : State) (j : Job)
  | wait (s : State) (j : Job)
  | stop (s : State) (code elem addr : Nat)

/-- A side resolved to a place (R215, R218): a walk is waited for where no translation is held. -/
inductive Found where
  | at (l kctx : Nat)
  | needWalk (va : Nat)
  | bad (code addr : Nat)

/-- The place of a side; a store of another Bench must be reachable, or the access faults before its request is sent (R218, R282, R286). -/
def State.find (s : State) (b : Nat) (d : Side) (wr : Bool) : Found :=
  match d with
  | .place l =>
    if locRegion l = 4 && s.benchGone b (locDie l) then .bad 0x0810 (locAddr l)
    else if !s.routed b (locDie l) then .bad 0x0A13 (locAddr l)
    else .at l 0
  | .virt va =>
    if !s.en b 0x78 then .bad 0x0901 va
    else if 2 ^ 44 ≤ va ∨ s.rfld b 0x78 Off.xltLim 0 15 * 2 ^ 30 ≤ va then .bad 0x0901 va
    else match s.heldXlt b va with
      | none => .needWalk va
      | some e => let c := s.accessCode b e.1 e.2 va wr; if c = 0 then .at (entryPlace e.1 e.2 va) (enKctx e.1) else .bad c va

/-- The address that a side records. -/
def sideAddr : Side → Nat
  | .place l => locAddr l
  | .virt va => va

/-- A held request recorded. -/
def State.holdRequest (s : State) (b l : Nat) (j : Job) : State × Job :=
  (if s.capped b (bankOf l) && !j.slotHeld then s.noteHot b (bankOf l) else s, { j with slotHeld := true })

/-- A write into an instruction bank (R87, R88): refused and counted for the active bank of a running core. -/
def State.writeInstr (s : State) (l : Nat) (bs : List Byte) : State :=
  let b := locDie l
  let u := locUnit l
  let a := locAddr l
  let f := s.face b u
  if decide (a / 0x20000 = f.bank.toNat) && (!f.parked || f.swap.isSome) then
    let p := ctlPage u
    let s := if u = 6 then s else
      (s.recordFirst b p Off.fccIrefAddr a).bump b p Off.fccIrefCnt 1
    (s.refuse b p 6 0xFFF 0x0208).raise b p (if u = 6 then 0 else 0x40000)
  else s.putBytes l bs

/-- A posted write is sent, if a slot can be taken for it; else it is held (R229, R231). DEDUCED: log entry 51. -/
def State.postWrite (s : State) (b key : Nat) (j : Job) (l kctx elem addr : Nat) (bs : List Byte) : Adv :=
  if s.mustHold b (jobClass key) l then let r := s.holdRequest b l j; .wait r.1 r.2
  else
    let r := (s.updatePrefetched b l bs).sendRequest b key l bs.length kctx 0x03 elem addr true bs
    .go r.2 { j with slotHeld := false, posted := j.posted ++ [r.1] }

/-- The write that waits to be combined is sent alone (R235). -/
def State.flushHalf (s : State) (b key : Nat) (j : Job) : Adv :=
  match j.half with
  | none => .go s j
  | some h =>
    match s.postWrite b key j h.place h.kctx h.elem h.addr h.data with
    | .go s j => .go s { j with half := none }
    | r => r

/-- A write of half a line in a memory beyond the Face stores: it may be combined with the agent's next write (R235). -/
def halfWrite (l : Nat) (bs : List Byte) : Bool := locRegion l != 4 && l % 64 == 0 && bs.length == 64

/-- A posted write, combined with the one before it where the two are the halves of one line (R235). DEDUCED: log entry 51. -/
def State.combineWrite (s : State) (b key : Nat) (j : Job) (l kctx elem addr : Nat) (bs : List Byte) : Adv :=
  let twin := j.half.filter (fun h => halfWrite l bs && lineStart h.place == lineStart l && h.place != l && h.kctx == kctx)
  match twin with
  | some h =>
    let data := if h.place < l then h.data ++ bs else bs ++ h.data
    match s.postWrite b key j (lineStart l) kctx h.elem h.addr data with
    | .go s j => .go s { j with half := none }
    | r => r
  | none =>
    match s.flushHalf b key j with
    | .go s j => if halfWrite l bs then .go s { j with half := some ⟨l, kctx, elem, addr, bs⟩ } else s.postWrite b key j l kctx elem addr bs
    | r => r

/-- A write of bytes by a job: into a store of the own Bench, held or dropped with its task, or posted as a request. -/
def State.jobWrite (s : State) (b key : Nat) (j : Job) (l kctx elem addr : Nat) (bs : List Byte) : Adv :=
  let ag := jobAgent key
  if locRegion l = 5 || locRegion l = 6 then
    if s.taskState b = 1 && s.inTask b ag then .stop s 0x0C12 elem addr
    else if s.taskState b = 3 && s.inTask b ag then .go (s.bump b 0x98 Off.spcDropw 1) j
    else .go (if locRegion l = 5 then s.writeInstr l bs else s.putBytes l bs) j
  else if s.writeWay b ag l ≠ 0 || ownStore b l then
    if s.storeStalls b ag [(l, bs)] then .wait (s.noteStall b) j
    else let r := s.writeAs b ag l kctx bs; .go r.st j
  else s.combineWrite b key j l kctx elem addr bs

/-- Bytes composed from the buffer (R212). -/
def composed (buf : List (List Byte)) (parts : List (Option (Nat × Nat))) : List Byte :=
  parts.map (fun x => match x with | some (i, k) => (buf.getD i []).getD k 0 | none => 0)

/-- A read by a job: of a store of the own Bench, of a prefetched line that the own Gallery holds, or a request that is answered by a
packet. DEDUCED: log entry 48. -/
def State.jobRead (s : State) (b key : Nat) (j : Job) (l kctx n elem addr : Nat) : Adv :=
  let ag := jobAgent key
  if s.mustHold b (jobClass key) l then let r := s.holdRequest b l j; .wait r.1 r.2
  else if ownStore b l || (s.prefetched b (lineStart l)).isSome then
    let r := (if ownStore b l then s else s.notePeak b).readAs b ag l n kctx
    if r.code ≠ 0 then .stop r.st r.code elem addr
    else .go r.st { j with slotHeld := false, buf := j.buf ++ [r.data] }
  else
    let r := s.sendRequest b key l n kctx 0x01 elem addr false []
    .wait r.2 { j with slotHeld := false, await := some r.1 }

/-- An atomic or a reduce-add by a job (R206, R244, R245, R246, R322, R327): not applied while its agent's task is in SPEC, dropped
once it is discarded, and otherwise applied at the scratch, over a request that takes a slot. -/
def State.jobAtom (s : State) (b key : Nat) (j : Job) (l kctx aop ty opnd cmpv elem addr : Nat) (res : Option Nat) : Adv :=
  let ag := jobAgent key
  let st := s.taskState b
  if st = 1 && s.inTask b ag then .wait (s.noteStall b) j
  else if st = 3 && s.inTask b ag then .go (s.bump b 0x98 Off.spcDropw 1) j
  else if s.mustHold b (jobClass key) l then let r := s.holdRequest b l j; .wait r.1 r.2
  else
    let data := [BitVec.ofNat 8 aop, BitVec.ofNat 8 ty, if res.isSome then 1 else 0, 0, 0, 0, 0, 0] ++ leBytes 8 opnd ++ leBytes 8 cmpv
    let r := s.sendRequest b key l (atomSize ty) kctx 0x05 elem addr true data
    .wait r.2 { j with slotHeld := false, await := some r.1 }

/-- A prefetched line placed in the own Gallery (R240), or discarded and counted where the prefetch is marked (R242). -/
def State.placeLine (s : State) (b line kctx : Nat) (marked : Bool) (data : List Byte) : State :=
  if marked then s.bump b 0x70 Off.galPfdrop 1
  else if s.cacheWays b = 0 then s
  else (s.makeRoom b line true).putLine b ⟨line, data, false, kctx, true⟩

/-- The position in index order that an access records with a fault. -/
def Access.pos : Access → Nat
  | .get _ _ e | .build _ _ e | .add _ _ e | .atom _ _ _ _ _ _ e | .fail _ e _ => e
  | _ => 0

/-- The lines of a list of byte ranges, counted as R211 counts accesses on one side, after the line of the last access. -/
def countLines : Option Nat → List (Nat × Nat) → Nat
  | _, [] => 0
  | last, (a, n) :: rs =>
    let hi := (a + n - 1) / 64
    (if last = some (a / 64) then 0 else 1) + (hi - a / 64) + countLines (some hi) rs

/-- A Hauler's access made: counted, with the bytes it writes (R211, R222). -/
def Job.made (j : Job) : Access → Job
  | .get d n _ =>
    let a := sideAddr d
    { j with accesses := j.accesses + countLines j.srcLine [(a, n)], srcLine := some ((a + n - 1) / 64) }
  | .build d ps _ =>
    let a := sideAddr d
    { j with accesses := j.accesses + countLines j.dstLine [(a, ps.length)], dstLine := some ((a + ps.length - 1) / 64),
             bytes := j.bytes + ps.length }
  | .add d fmt _ => { j with accesses := j.accesses + 1, dstLine := some (sideAddr d / 64), bytes := j.bytes + if fmt = 1 then 2 else 4 }
  | _ => j

/-- The low `n` bits of a byte list, the others cleared. -/
def keepBits (n : Nat) (bs : List Byte) : List Byte := leBytes bs.length (leNat bs % 2 ^ n)

/-- One access of a job. DEDUCED: log entries 46, 59. -/
def State.access (s : State) (b key : Nat) (j : Job) (a : Access) : Adv :=
  match a with
  | .get d n elem =>
    match s.find b d false with
    | .needWalk va => .wait s { j with walk := some (va, false) }
    | .bad c addr => .stop s c elem addr
    | .at l k => s.jobRead b key j l k n elem (sideAddr d)
  | .const bs => .go s { j with buf := j.buf ++ [bs] }
  | .build d parts elem =>
    match s.find b d true with
    | .needWalk va => .wait s { j with walk := some (va, true) }
    | .bad c addr => .stop s c elem addr
    | .at l k => s.jobWrite b key j l k elem (sideAddr d) (composed j.buf parts)
  | .add d fmt elem =>
    match s.find b d true with
    | .needWalk va => .wait s { j with walk := some (va, true) }
    | .bad c addr => .stop s c elem addr
    | .at l k =>
      if locRegion l ≠ 3 then .stop s 0x0807 elem (sideAddr d)
      else s.jobAtom b key j l k 0 (if fmt = 0 then 2 else if fmt = 1 then 3 else 0) (leNat (j.buf.headD [])) 0 elem (sideAddr d) none
  | .drop n => .go s { j with buf := j.buf.drop n }
  | .trim n => .go s { j with buf := j.buf.dropLast ++ (match j.buf.getLast? with | some x => [keepBits n x] | none => []) }
  | .atom va aop ty opnd cmpv res elem =>
    if va % atomSize ty ≠ 0 then .stop s 0x090B elem va
    else match s.find b (.virt va) true with
      | .needWalk va => .wait s { j with walk := some (va, true) }
      | .bad c addr => .stop s c elem addr
      | .at l k => if locRegion l ≠ 3 then .stop s 0x0908 elem va else s.jobAtom b key j l k aop ty opnd cmpv elem va res
  | .line va =>
    match s.find b (.virt va) false with
    | .needWalk va => .wait s { j with walk := some (va, false) }
    | .bad c addr => .stop s c 0 addr
    | .at l k =>
      if locRegion l = 3 then .go s j
      else if s.mustHold b (jobClass key) l then let r := s.holdRequest b l j; .wait r.1 r.2
      else
        let r := s.sendRequest b key (lineStart l) 128 k 0x01 0 va false []
        .wait r.2 { j with slotHeld := false, await := some r.1 }
  | .fail code elem addr => .stop s code elem addr

/-! ### A job's faults and progress -/

/-- HLR_FAULT and its companions, for the first fault since the last read (R221, R222). DEDUCED: log entries 47, 55. -/
def State.hlrFault (s : State) (b key code elem addr : Nat) (kick : Option Nat) : State :=
  let p := hlrPage key
  let k := match kick with | some n => 0x80000 + n * 0x10000 | none => 0
  let s := if wbit (s.reg b p Off.hlrFault) 31 then s
    else (((s.setReg b p Off.hlrFault (w32 (0x80000000 + k + code))).setReg b p Off.hlrFaultAddrLo (w32 addr)).setReg b p
      Off.hlrFaultAddrHi (w32 (addr / 2 ^ 32))).setReg b p Off.hlrFaultElem (w32 (min elem 0xFFFFFFFF))
  s.setFlt b p

/-- GAL_FAULT, for the first fault since the last read (R253, R257): the Face, or 6 for a Bench agent. DEDUCED: log entry 55. -/
def State.galFault (s : State) (b unit code : Nat) : State :=
  (s.recordFirst b 0x70 Off.galFault (unit * 0x10000 + code)).setFlt b 0x70

/-- What a Hauler has written and accessed, counted when its descriptor ends (R222). DEDUCED: log entry 47. -/
def State.countHaul (s : State) (b key : Nat) (j : Job) : State :=
  if key < 16 then (s.bump b (hlrPage key) Off.hlrBytes (j.bytes / 64)).bump b (hlrPage key) Off.hlrAcc j.accesses else s

/-- A write that waits to be combined is sent although its job stops: what was written before the fault stays (R218, R235). -/
def State.sendHalf (s : State) (b key : Nat) (j : Job) : State :=
  match j.half with
  | some h => ((s.updatePrefetched b h.place h.data).sendRequest b key h.place h.data.length h.kctx 0x03 h.elem h.addr true h.data).2
  | none => s

/-- A job stops with a fault (R82, R218, R221): recorded with its agent, in XLT_FAULT where a translation or protection check
failed, and, unless a kick started it, as an imprecise exception of the unit that issued it. It gives no SIGNAL. -/
def State.failJob (s : State) (b key : Nat) (j : Job) (code elem addr : Nat) : State :=
  let s := (((s.sendHalf b key j).countHaul b key j).xltFault b (jobSrc key j.issuer) code addr).setJob b key none
  let s := if key < 16 then s.hlrFault b key code elem addr j.kick else s.galFault b (min j.issuer 6) code
  match j.kick with
  | some _ => s
  | none => s.imprecise b j.issuer j.entry code 0

/-- The accesses of a job carried out until it is done, waits, or stops. DEDUCED: log entry 46. -/
def State.runAccesses (s : State) (b key : Nat) (j : Job) : List Access → State
  | [] =>
    match s.flushHalf b key j with
    | .go s j | .wait s j => s.setJob b key (some { j with todo := [], ended := j.posted.isEmpty && j.half.isNone })
    | .stop s c elem addr => s.failJob b key j c elem addr
  | a :: as =>
    match s.access b key j a with
    | .go s j => s.runAccesses b key (j.made a) as
    | .wait s j => s.setJob b key (some { j with todo := a :: as })
    | .stop s c elem addr => s.failJob b key j c elem addr

/-- A job that does not wait for a walk or an answer goes on. DEDUCED: log entry 46. -/
def State.advance (s : State) (b key : Nat) : State :=
  match s.job b key with
  | some j => if j.walk.isSome || j.await.isSome || j.ended then s else s.runAccesses b key j j.todo
  | none => s

/-- The jobs in the order in which they ask for slots: ascending Face, then the Bench agents (R230). -/
def jobOrder : List Nat := [0, 16, 1, 17, 2, 18, 3, 19, 4, 20, 5, 21, 6, 22]

/-- Every job that is held goes on if it can. -/
def State.advanceAll (s : State) (b : Nat) : State := jobOrder.foldl (fun s k => s.advance b k) s

/-- The job of a translation agent (R223). -/
def xltJob (ag : XltAgent) : Option Nat :=
  match ag.kind.val with
  | 0 => some ag.face.val
  | 1 => some 6
  | 3 => some (16 + ag.face.val)
  | _ => none

/-- XLT_WALK_DONE (R217, R219): the job that waits on this walk goes on with the mapping, or stops with 0x0901. The result of a walk that
began before an invalidation is discarded, and the job walks again. DEDUCED: log entries 46, 50. -/
def execXltWalkDone (b : BenchId) (ag : XltAgent) (va : DWord) (wr : Bool) (s : State) : Host.Outcome State Fault Refusal :=
  .next (match xltJob ag with
    | none => s
    | some key =>
      match s.job b key with
      | none => s
      | some j =>
        if j.walk ≠ some (va.toNat, wr) then s
        else
          let w := s.walk b va.toNat
          if j.stale then (w.2.setJob b key (some { j with walk := none, stale := false })).advance b key
          else match w.1 with
          | some e => ((w.2.keepXlt b va.toNat e.1 e.2).setJob b key (some { j with walk := none })).advance b key
          | none => w.2.failJob b key j 0x0901 ((j.todo.head?.map Access.pos).getD 0) va.toNat)

/-- A request's slot by its number. -/
def State.slotOf (s : State) (b tag : Nat) : Option Slot := (s.bench b).slots.find? (fun t => t.tag == tag)

/-- A slot freed (R229). -/
def State.freeSlot (s : State) (b tag : Nat) : State :=
  s.updBench b (fun x => { x with slots := x.slots.filter (fun t => t.tag != tag) })

/-- What the data of an answer do to the job's access: read bytes join the buffer under the held bytes, a prefetched line is placed, an
atomic's old value is stored. -/
def State.answered (s : State) (b : Nat) (t : Slot) (j : Job) (data : List Byte) : State × Job :=
  match j.todo.head? with
  | some (.get _ n _) =>
    let r := overHeld (if s.seesHeld b (jobAgent t.job) then (s.bench b).held else []) t.place ((data.drop (t.place % 64)).take n)
    (s, { j with buf := j.buf ++ [r] })
  | some (.line _) => (if locRegion t.place = 1 && locDie t.place = b then s else s.placeLine b t.place t.kctx j.marked data, j)
  | some (.atom _ _ ty _ _ (some a) _) => ((s.writeAs b (jobAgent t.job) a 0 (data.take (atomSize ty))).st, j)
  | _ => (s, j)

/-- The answer to a request reaches its Bench: the slot is freed, and the job goes on with the data, or stops with the code of
a status other than 0; a Face store whose Bench has gone is 0x0810 (R218, R229, R232, R266, R282). -/
def State.answer (s : State) (b tag code : Nat) (data : List Byte) : State :=
  match s.slotOf b tag with
  | none => s
  | some t =>
    let s := s.freeSlot b tag
    let code := if code = 0x0906 ∧ locRegion t.place = 4 then 0x0810 else code
    match s.job b t.job with
    | none => s
    | some j =>
      if j.await ≠ some tag && !j.posted.contains tag then s
      else if code ≠ 0 then s.failJob b t.job j code t.elem t.addr
      else if j.await = some tag then
        let r := s.answered b t j data
        (r.1.setJob b t.job (some { (match j.todo.head? with | some a => r.2.made a | none => r.2) with
          await := none, todo := j.todo.drop 1 })).advance b t.job
      else
        let j := { j with posted := j.posted.erase tag }
        s.setJob b t.job (some { j with ended := j.todo.isEmpty && j.posted.isEmpty && j.half.isNone && j.walk.isNone && j.await.isNone })

/-- BANK_CAP_RELEASE (R231): held requests whose bank has a free slot take one, in the order of R230. -/
def execBankCapRelease (b : BenchId) (s : State) : Host.Outcome State Fault Refusal := .next (s.advanceAll b)

/-- MEMORY_REQUEST_TIMEOUT (R232): a request to tier N or tier C without an answer ends with 0x090A. DEDUCED: log entry 11. -/
def execMemoryRequestTimeout (b : BenchId) (tag : Nat) (s : State) : Host.Outcome State Fault Refusal :=
  .next (match s.slotOf b tag with
    | some t => if t.tiered then s.answer b tag 0x090A [] else s
    | none => s)

/-- FABRIC_REQUEST_TIMEOUT (R286): a request without an answer for 8 ms ends with 0x0A31. DEDUCED: log entry 11. -/
def execFabricRequestTimeout (b : BenchId) (tag : Nat) (s : State) : Host.Outcome State Fault Refusal :=
  .next (s.answer b tag 0x0A31 [])

end Sys2Proof.Machine
end

