-- ==== Sys2Proof/Machine/Hauler.lean ====
section
/-!
DEFINITION. The Haulers (R201 to R214, R220, R221): the descriptor, its checks in their order, the accesses it makes, and its
start and completion.
-/

namespace Sys2Proof.Machine

/-! ### The descriptor (R202 to R204): 32 words -/

/-- A word of a descriptor. -/
def dw (d : List Nat) (k : Nat) : Nat := d.getD k 0
/-- NDIM. -/
def dNdim (d : List Nat) : Nat := fld (dw d 0) 0 3 + 1
/-- ESZ. -/
def dEsz (d : List Nat) : Nat := fld (dw d 0) 3 3
/-- The element's size in bytes. -/
def dSize (d : List Nat) : Nat := 2 ^ dEsz d
/-- OP = SKEW. -/
def dSkew (d : List Nat) : Bool := fld (dw d 0) 6 2 == 1
/-- ACC. -/
def dAcc (d : List Nat) : Bool := nbit (dw d 0) 8
/-- FMT. -/
def dFmt (d : List Nat) : Nat := fld (dw d 0) 9 4
/-- IXM. -/
def dIxm (d : List Nat) : Nat := fld (dw d 0) 13 2
/-- IXD. -/
def dIxd (d : List Nat) : Nat := fld (dw d 0) 15 3
/-- RSIG. -/
def dRsig (d : List Nat) : Word := w32 (dw d 1)
/-- SBASE, SLIM, DBASE or DLIM by its first word: 2, 4, 6 or 8. -/
def dLong (d : List Nat) (k : Nat) : Nat := dw d k + dw d (k + 1) * 2 ^ 32
/-- SOFF or DOFF by its word: 10 or 11. -/
def dOff (d : List Nat) (k : Nat) : Int := sext 32 (dw d k)
/-- SSPACE. -/
def dSspace (d : List Nat) : Nat := fld (dw d 12) 0 4
/-- DSPACE. -/
def dDspace (d : List Nat) : Nat := fld (dw d 12) 4 4
/-- P of SKW.PC. -/
def dP (d : List Nat) : Nat := 2 ^ fld (dw d 14) 0 2
/-- SKW.MX. -/
def dMx (d : List Nat) : Bool := nbit (dw d 14) 2
/-- CNT of a dimension; 1 at or above NDIM. -/
def dCnt (d : List Nat) (k : Nat) : Nat := if k < dNdim d then dw d (16 + k) else 1
/-- SSTR of a dimension. -/
def dSstr (d : List Nat) (k : Nat) : Int := sext 32 (dw d (21 + k))
/-- DSTR of a dimension. -/
def dDstr (d : List Nat) (k : Nat) : Int := sext 32 (dw d (26 + k))
/-- The dimensions in use. -/
def dDims (d : List Nat) : List Nat := List.range (dNdim d)
/-- A count is 0: the descriptor moves nothing (R207). -/
def dEmpty (d : List Nat) : Bool := (dDims d).any (fun k => dCnt d k == 0)
/-- The product of the counts. -/
def dTotal (d : List Nat) : Nat := (dDims d).foldl (fun n k => n * dCnt d k) 1

/-- A side of a descriptor: its space, die, Face, base, limit, offset and strides. -/
structure DSide where
  space : Nat
  die : Nat
  face : Nat
  base : Nat
  lim : Nat
  off : Int
  str : Nat → Int
  indexed : Bool

/-- The source side. -/
def dSrc (d : List Nat) : DSide :=
  ⟨dSspace d, fld (dw d 12) 8 5, fld (dw d 12) 13 3, dLong d 2, dLong d 4, dOff d 10, dSstr d, dIxm d == 1⟩

/-- The destination side. -/
def dDst (d : List Nat) : DSide :=
  ⟨dDspace d, fld (dw d 12) 16 5, fld (dw d 12) 21 3, dLong d 6, dLong d 8, dOff d 11, dDstr d, dIxm d == 2⟩

/-- The bytes that the source reads for dimension 0 of a SKEW: a packed run (R212). -/
def vecBytes (d : List Nat) : Nat := elemBytes (if dFmt d = 0xD then 8 else (Fmt.ofCode (dFmt d)).bits) (dCnt d 0)

/-- The bounding box of a side: lowest and highest byte offset (R208), over the dimensions that are not indexed. -/
def dBox (d : List Nat) (x : DSide) : Int × Int :=
  let ks := (dDims d).filter (fun k => !(x.indexed && k == dIxd d))
  let lo := ks.foldl (fun a k => a + min 0 (((dCnt d k : Int) - 1) * x.str k)) x.off
  let hi := ks.foldl (fun a k => a + max 0 (((dCnt d k : Int) - 1) * x.str k)) x.off
  (lo, hi + dSize d - 1)

/-- The source box: a SKEW whose elements are narrower than a byte reads packed runs. -/
def srcBox (d : List Nat) : Int × Int :=
  let b := dBox d (dSrc d)
  if dSkew d && dSstr d 0 == 0 then (b.1, b.2 + vecBytes d - dSize d) else b

/-- Line pitch of a SKEW. -/
def skewPitch (d : List Nat) : Nat := if dMx d then 288 else 256

/-- The destination box: a SKEW writes whole lines (R212). -/
def dstBox (d : List Nat) : Int × Int :=
  if dSkew d then
    let ks := (dDims d).filter (fun k => 2 ≤ k)
    let lo := ks.foldl (fun a k => a + min 0 (((dCnt d k : Int) - 1) * dDstr d k)) (dOff d 11)
    let hi := ks.foldl (fun a k => a + max 0 (((dCnt d k : Int) - 1) * dDstr d k)) (dOff d 11)
    (lo, hi + (dCnt d 1 + 6) * skewPitch d + (if dFmt d = 0xD then 288 else 256) - 1)
  else dBox d (dDst d)

/-- A box lies within its buffer. -/
def inBuffer (b : Int × Int) (lim : Nat) : Bool := decide (0 ≤ b.1) && decide (b.2 < lim)

/-- The end of a side's space (R204). -/
def spaceEnd (x : DSide) : Nat :=
  match x.space with
  | 1 => 2 ^ 44
  | 3 => if x.base < 0x20000 then 0x20000 else 0x40000
  | 4 => 0x40400
  | _ => if x.space = 2 ∧ x.face = 6 then 0x200000 else 0x800000

/-- DIE and FACE of a side are values that its space takes (R204). -/
def targetOk (b : Nat) (x : DSide) : Bool :=
  match x.space with
  | 2 => decide (x.die ≤ 15) && (decide (x.face ≤ 5) || (x.face == 6 && x.die == b))
  | 3 => x.die == 0 && decide (x.face ≤ 6)
  | 4 => x.die == 0 && decide (x.face ≤ 5)
  | _ => x.die == 0 && x.face == 0

/-- The store that a side of space 0 or 2 names: Bench and Face. -/
def sideStore (b owner : Nat) (x : DSide) : Option (Nat × Nat) :=
  match x.space with
  | 0 => some (b, owner)
  | 2 => some (x.die, x.face)
  | _ => none

/-- A descriptor is an identity copy (R209). -/
def dIdentity (d : List Nat) : Bool :=
  !dSkew d && dIxm d == 0 && (dDims d).all (fun k => decide (dCnt d k ≤ 1) || dSstr d k == dDstr d k)

/-- The absolute bytes of a side for the overlap rule: on an indexed side the whole buffer (R209). -/
def sideBytes (x : DSide) (box : Int × Int) : Int × Int :=
  if x.indexed then ((x.base : Int), (x.base : Int) + x.lim - 1) else ((x.base : Int) + box.1, (x.base : Int) + box.2)

/-- Two closed ranges meet. -/
def closedMeet (a b : Int × Int) : Bool := decide (a.1 ≤ b.2) && decide (b.1 ≤ a.2)

/-- The sides overlap (R209). DEDUCED: log entry 48. -/
def sidesOverlap (b owner : Nat) (d : List Nat) : Bool :=
  let same := match sideStore b owner (dSrc d), sideStore b owner (dDst d) with
    | some x, some y => x == y
    | _, _ => dSspace d == 1 && dDspace d == 1
  same && closedMeet (sideBytes (dSrc d) (srcBox d)) (sideBytes (dDst d) (dstBox d))

/-- The P values of R118 that a Slab stream uses for a format. -/
def skewP (f : Fmt) (p : Nat) : Bool :=
  match f with
  | .bf16 | .fp16 => p == 1
  | .mxE2m1 => p == 2 || p == 4
  | .e4m3 | .e5m2 | .int8 | .mxE4m3 | .mxE5m2 | .mxE2m3 | .mxE3m2 => p == 2
  | _ => false

/-- The words of the SKEW fields that are misused (R212): of fields that contradict each other, the lowest word (R30). -/
def skewWords (d : List Nat) : List Nat :=
  let f := Fmt.ofCode (dFmt d)
  let sc := dFmt d == 0xD
  let p := dP d
  let bad := fun (w : Nat) (c : Bool) => if c then [w] else []
  bad 0 (((f.isMx || sc) && p == 1) || (sc && !dMx d) || (!sc && !skewP f p) || decide ((if sc then 4 * p else 128 * p) < dCnt d 0)
    || dSstr d 0 != (if !sc && f.bits < 8 then 0 else if sc then 1 else ((f.bits / 8 : Nat) : Int)) || dAcc d || dIxm d == 2
    || (dIxm d == 1 && dIxd d == 0))
  ++ bad 14 (fld (dw d 14) 0 2 == 3) ++ bad 26 (dw d 26 != 0) ++ bad 27 (dw d 27 != 0)

/-- SKEW fields misused (R212). -/
def skewBad (d : List Nat) : Bool := !(skewWords d).isEmpty

/-- ACC with a format or an ESZ that it does not take (R206). -/
def accBad (d : List Nat) : Bool :=
  dAcc d && !((dFmt d == 0 && dEsz d == 2) || (dFmt d == 1 && dEsz d == 1) || (Fmt.ofCode (dFmt d) == .int32 && dEsz d == 2))

/-- The words of a side that do not fit its element size, or 64 in spaces 3 and 4 (R204, R224): ESZ, BASE, LIM, OFF and the strides,
which stand at `base`, `base` + 2, `off` and from `str` on. -/
def sideWords (d : List Nat) (x : DSide) (base off str : Nat) : List Nat :=
  let code := decide (x.space = 3 ∨ x.space = 4)
  let m := if code then 64 else dSize d
  let bad := fun (w : Nat) (c : Bool) => if c then [w] else []
  bad 0 (code && dEsz d != 6) ++ bad base (x.base % m != 0) ++ bad (base + 2) (code && x.lim % 64 != 0) ++ bad off (x.off % m != 0)
    ++ (dDims d).flatMap (fun k => bad (str + k) (decide (1 < dCnt d k) && x.str k % m != 0))

/-- The misaligned words of a descriptor (R204, R224). -/
def misaligned (d : List Nat) : List Nat :=
  (if dSspace d = 5 then [] else sideWords d (dSrc d) 2 10 21) ++ sideWords d (dDst d) 6 11 26

/-- The lowest word of a list. -/
def lowest (ws : List Nat) : Nat := (ws.min?).getD 0

/-- Reserved values and fields of a descriptor: the first offending word (R202 to R204). -/
def reservedWord (b : Nat) (d : List Nat) : Option Nat :=
  if dw d 0 / 2 ^ 18 ≠ 0 ∨ 4 < fld (dw d 0) 0 3 ∨ dEsz d = 7 ∨ 1 < fld (dw d 0) 6 2 ∨ dIxm d = 3 then some 0
  else if dSspace d = 5 ∧ (dLong d 2 ≠ 0) then some 2
  else if dSspace d = 5 ∧ (dLong d 4 ≠ 0) then some 4
  else if dSspace d = 5 ∧ dw d 10 ≠ 0 then some 10
  else if dw d 12 / 2 ^ 24 ≠ 0 ∨ 6 ≤ dSspace d ∨ 6 ≤ dDspace d ∨ !targetOk b (dSrc d) ∨ !targetOk b (dDst d) then some 12
  else if dw d 14 / 8 ≠ 0 ∨ (!dSkew d ∧ fld (dw d 14) 0 2 = 3) then some 14
  else if dw d 15 ≠ 0 then some 15
  else match (List.range 5).find? (fun k => decide (dNdim d ≤ k) && dw d (16 + k) != 0) with
    | some k => some (16 + k)
    | none => match (List.range 5).find? (fun k => (decide (dNdim d ≤ k) || dSspace d == 5) && dw d (21 + k) != 0) with
      | some k => some (21 + k)
      | none => match (List.range 5).find? (fun k => decide (dNdim d ≤ k) && dw d (26 + k) != 0) with
        | some k => some (26 + k)
        | none => if dw d 31 ≠ 0 then some 31 else none

/-- How a descriptor was named: by the index tensor's address, whether the long form names one, and by a kick or not. -/
structure DUse where
  owner : Nat
  hauler : Nat
  ixr : Bool
  ix : Nat
  kicked : Bool

/-- Indirection misused (R210, R220). DEDUCED: log entry 47. -/
def indirectBad (d : List Nat) (u : DUse) : Bool :=
  if dIxm d = 0 then u.ixr
  else u.kicked || !u.ixr || decide (dNdim d ≤ dIxd d) || u.ix % 4 != 0 || decide (4096 < dCnt d (dIxd d))
    || decide (0x800000 < u.ix + 4 * dCnt d (dIxd d))

/-- The destination in a Face store overlaps the index tensor (R209). -/
def overlapsIndex (b : Nat) (d : List Nat) (u : DUse) : Bool :=
  dIxm d != 0 && sideStore b u.owner (dDst d) == some (b, u.owner)
    && closedMeet (sideBytes (dDst d) (dstBox d)) ((u.ix : Int), (u.ix : Int) + 4 * dCnt d (dIxd d) - 1)

/-- A side of space 2 names another Bench, or space 3 or 4 the own one: the Bench named. -/
def sideBench (b : Nat) (x : DSide) : Option Nat := if x.space = 2 then some x.die else if x.space = 3 ∨ x.space = 4 then some b else none

/-- The faults that a descriptor can have before it runs, in the order of R221, each with the word that a page check names:
those of a format (R41, R44, R46) first, then those of R202 to R204 and R207 to R209, then those of the run.
DEDUCED: log entry 47. -/
def State.descFaults (s : State) (b : Nat) (d : List Nat) (u : DUse) : List (Bool × Nat × Nat) :=
  let mv := !dEmpty d
  let sides := [dSrc d, dDst d]
  let gone := sides.any (fun x => match sideBench b x with
    | some t => t != b && (s.benchGone b t)
    | none => false)
  let alien := sides.any (fun x => match sideBench b x with
    | some t => s.benchCtx t != s.benchCtx b
    | none => false)
  let noRoute := sides.any (fun x => match sideBench b x with
    | some t => !s.routed b t
    | none => false)
  [((dSkew d || dAcc d) && dFmt d == 0xF, 0x0101, 0), (dFmt d == 0xC, 0x0104, 0),
    (dSkew d && (Fmt.ofCode (dFmt d)).isMx && dCnt d 0 % 32 != 0, 0x0102, 0), ((reservedWord b d).isSome, 0x0801, (reservedWord b d).getD 0),
    (dSspace d == 3 || dSspace d == 4 || dDspace d == 5 || (u.kicked && u.hauler == 6 && (dSspace d == 0 || dDspace d == 0)), 0x0806, 12),
    (!(misaligned d).isEmpty, 0x0802, lowest (misaligned d)),
    (indirectBad d u, 0x080A, 0), (dSkew d && skewBad d, 0x0808, lowest (skewWords d)), (accBad d || (dAcc d && dSkew d), 0x0807, 0),
    (decide (2 ^ 40 < dTotal d), 0x0809, 16),
    (mv && dSspace d != 5 && decide (spaceEnd (dSrc d) < dLong d 2 + dLong d 4), 0x0804, 2),
    (mv && decide (spaceEnd (dDst d) < dLong d 6 + dLong d 8), 0x0804, 6),
    (mv && dSspace d != 5 && !inBuffer (srcBox d) (dLong d 4), 0x0803, 4), (mv && !inBuffer (dstBox d) (dLong d 8), 0x0803, 8),
    (mv && !dIdentity d && sidesOverlap b u.owner d, 0x0805, 2), (mv && overlapsIndex b d u, 0x080F, 6),
    ((dSspace d == 1 || dDspace d == 1) && !s.en b 0x78, 0x0811, 12),
    (alien, 0x080C, 12), (gone, 0x0810, 12), (noRoute, 0x0A13, 12)]

/-! ### The accesses (R205, R206, R209 to R212) -/

/-- The index tuples of the dimensions, dimension 0 fastest. -/
def tuples : List Nat → List (List Nat)
  | [] => [[]]
  | n :: ns => (tuples ns).flatMap (fun t => (List.range n).map (fun i => i :: t))

/-- The place or virtual address at an offset of a side. -/
def sideAt (b owner : Nat) (x : DSide) (off : Int) : Side :=
  let a := ((x.base : Int) + off).toNat
  match x.space with
  | 1 => .virt a
  | 0 => .place (fsLoc b owner a)
  | 2 => .place (fsLoc x.die x.face a)
  | 3 => .place (loc 5 b x.face a)
  | _ => .place (loc 6 b x.face a)

/-- The offset of an element of a side, and its index where the side is indexed (R205, R210). -/
def elemOff (d : List Nat) (x : DSide) (idx : List Int) (t : List Nat) : Int :=
  (List.range t.length).foldl (fun a k =>
    let i : Int := if x.indexed && k == dIxd d then idx.getD (t.getD k 0) 0 else (t.getD k 0 : Nat)
    a + i * x.str k) x.off

/-- The index that a tuple takes on the indexed side. -/
def tupleIdx (d : List Nat) (idx : List Int) (t : List Nat) : Int := if dIxm d = 0 then 0 else idx.getD (t.getD (dIxd d) 0) 0

/-- Bytes of the constant source (R204): byte `k` of every element is byte `k` mod 4 of FILL. -/
def fillBytes (d : List Nat) (n : Nat) : List Byte := (List.range n).map (fun k => (leBytes 4 (dw d 13)).getD (k % dSize d % 4) 0)

/-- An index stops the descriptor, or takes the address of its side out of the buffer (R210); the constant source has no buffer. -/
def indexBad (x : DSide) (i off : Int) (n : Nat) : Bool :=
  x.indexed && i != -1 && (decide (i < -1) || (x.space != 5 && (decide (off < 0) || decide ((x.lim : Int) < off + n))))

/-- One element of a copy: what it reads and what it writes; `k` is the buffer entry it takes. -/
def elemAccesses (b : Nat) (d : List Nat) (u : DUse) (idx : List Int) (e : Nat) (t : List Nat) : List Access × List Access :=
  let n := dSize d
  let i := tupleIdx d idx t
  let so := elemOff d (dSrc d) idx t
  let dOff := elemOff d (dDst d) idx t
  let rd := if dIxm d = 1 && i == -1 then [.const (List.replicate n 0)]
    else if indexBad (dSrc d) i so n then [.fail 0x080B e (((dSrc d).base : Int) + so).toNat]
    else if dSspace d = 5 then [.const (fillBytes d n)]
    else [.get (sideAt b u.owner (dSrc d) so) n e]
  let wr := if dIxm d = 2 && i == -1 then []
    else if indexBad (dDst d) i dOff n then [.fail 0x080B e (((dDst d).base : Int) + dOff).toNat]
    else if dAcc d then [.add (sideAt b u.owner (dDst d) dOff) (dFmt d) e]
    else [.build (sideAt b u.owner (dDst d) dOff) ((List.range n).map (fun k => some (0, k))) e]
  (rd, wr ++ [.drop 1])

/-- The accesses of a COPY: element by element, or, for an identity copy whose sides overlap, every read before the first write
(R209). Copies between virtual addresses of one memory are not seen as overlapping: their requests reach the memory in no fixed order.
DEDUCED: log entry 48. -/
def copyAccesses (b : Nat) (d : List Nat) (u : DUse) (idx : List Int) : List Access :=
  let ts := tuples ((dDims d).map (dCnt d))
  let es := (List.range ts.length).map (fun e => elemAccesses b d u idx e (ts.getD e []))
  if dIdentity d && sidesOverlap b u.owner d then es.flatMap (·.1) ++ es.flatMap (·.2) else es.flatMap (fun x => x.1 ++ x.2)

/-- A byte run cut at 64-byte lines: offset in the run and length. -/
def runPieces : Nat → Nat → Nat → List (Nat × Nat)
  | 0, _, _ => []
  | fuel + 1, a, n => if n = 0 then [] else let k := min n (64 - a % 64); (a, k) :: runPieces fuel (a + k) (n - k)

/-- The accesses of a SKEW (R212): for each repeat, the vectors are read, and then the lines are written whole. -/
def skewAccesses (b : Nat) (d : List Nat) (u : DUse) (idx : List Int) : List Access :=
  let p := dP d
  let sc := dFmt d = 0xD
  let bits := (Fmt.ofCode (dFmt d)).bits
  let vecs := dCnt d 1
  let nb := vecBytes d
  let reps := tuples ((List.range (dNdim d - 2)).map (fun k => dCnt d (k + 2)))
  (List.range reps.length).flatMap (fun r =>
    let t := reps.getD r []
    let reads := (List.range vecs).map (fun j =>
      let tup := 0 :: j :: t
      let i := tupleIdx d idx tup
      let so := elemOff d (dSrc d) idx tup
      let e := (r * vecs + j) * dCnt d 0
      let const := dSspace d = 5 ∨ dIxm d = 1 ∧ i = -1
      let a := if const then 0 else (((dSrc d).base : Int) + so).toNat
      let ps := runPieces (nb / 64 + 2) a nb
      if indexBad (dSrc d) i so nb then (0, 1, [Access.fail 0x080B e (((dSrc d).base : Int) + so).toNat])
      else
        let bytes := if dIxm d = 1 ∧ i = -1 then List.replicate nb 0 else fillBytes d nb
        (a, ps.length, ps.map (fun q => if const then .const ((bytes.drop q.1).take q.2)
            else .get (sideAt b u.owner (dSrc d) ((q.1 : Int) - (dSrc d).base)) q.2 e)
          ++ (if sc then [] else [.trim (dCnt d 0 * bits - 8 * (nb - (ps.getLastD (0, nb)).2))])))
    let first := fun j => ((reads.take j).map (fun x => x.2.1)).foldl (· + ·) 0
    let byteOf := fun (j k : Nat) => if k < nb then
        let a := (reads.getD j (0, 1, [])).1
        let piece := (a + k) / 64 - a / 64
        some (first j + piece, if piece = 0 then k else (a + k) % 64)
      else none
    let drep := (List.range t.length).foldl (fun a k => a + (t.getD k 0 : Nat) * dDstr d (k + 2)) (dOff d 11)
    let group := 2 * p * bits
    let lineByte := fun (ln k : Nat) =>
      if sc then
        if k < 256 + 4 * p then
          let q := k - 256
          if q / (p / 2) ≤ ln ∧ ln - q / (p / 2) < vecs then byteOf (ln - q / (p / 2)) q else none
        else none
      else
        let g := k / group
        if g < 8 ∧ g ≤ ln ∧ ln - g < vecs then byteOf (ln - g) k else none
    let lines := (List.range (vecs + 7)).flatMap (fun (ln : Nat) =>
      let ks : List (Nat × Nat) := if sc then [(256, 32)] else [(0, 64), (64, 64), (128, 64), (192, 64)]
      ks.flatMap (fun q =>
        let off := drep + ((ln * skewPitch d + q.1 : Nat) : Int)
        let a := (((dDst d).base : Int) + off).toNat
        (runPieces 3 a q.2).map (fun x => Access.build (sideAt b u.owner (dDst d) (off + ((x.1 - a : Nat) : Int)))
          ((List.range x.2).map (fun k => lineByte ln (q.1 + (x.1 - a) + k))) (r * vecs * dCnt d 0))))
    reads.flatMap (fun x => x.2.2) ++ lines ++ [.drop (first vecs)])

/-! ### Start and completion -/

/-- A transfer that has done nothing yet. -/
def newJob (issuer : Nat) (entry : QEntry) : Job :=
  { todo := [], buf := [], walk := none, stale := false, await := none, slotHeld := false, posted := [], half := none, issuer := issuer,
    entry := entry, kick := none, rsig := 0, bytes := 0, accesses := 0, srcLine := none, dstLine := none, ended := false, marked := false,
    into := none }

/-- A descriptor starts (R207 to R212, R221): its checks in order, its index tensor, and its accesses. -/
def State.startDescriptor (s : State) (b key : Nat) (u : DUse) (entry : QEntry) (slot : Option Nat) (d : List Nat) : State :=
  let j : Job := { newJob u.owner entry with
                   kick := slot, rsig := dRsig d,
                   into := if dDspace d = 3 then some (2 * (dDst d).face + (dDst d).base / 0x20000) else none }
  match (s.descFaults b d u).find? (·.1) with
  | some (_, code, _) => s.failJob b key j code 0 0
  | none =>
    let n := dCnt d (dIxd d)
    let ag := jobAgent key
    let idx := if dIxm d = 0 then [] else (List.range n).map (fun i => sext 32 (s.natAs b ag (fsLoc b u.owner (u.ix + 4 * i)) 4))
    let as := if dEmpty d then [] else if dSkew d then skewAccesses b d u idx else copyAccesses b d u idx
    (s.setJob b key (some { j with todo := as })).advance b key

/-- The 32 words of an in-memory descriptor. -/
def State.descAt (s : State) (b ag l : Nat) : List Nat := (List.range 32).map (fun k => s.natAs b ag (l + 4 * k) 4)

/-- The 32 words of a standing slot (R220). -/
def State.slotWords (s : State) (b key n : Nat) : List Nat :=
  (List.range 32).map (fun k => (s.reg b (hlrPage key) (Off.hlrSlot + 0x80 * n + 4 * k)).toNat)

/-- A slot is valid: HLR_CFG.SLOTV. -/
def State.slotValid (s : State) (b key n : Nat) : Bool := wbit (s.reg b (hlrPage key) Off.hlrCfg) n

/-- A HAUL of a Face starts on a Hauler (R202, R220, R221): with the page disabled it stops with 0x080D. -/
def State.startHaul (s : State) (b key face : Nat) (e : QEntry) : State :=
  let ga := e.ga.toNat
  let blank := newJob face e
  let u : DUse := ⟨face, key, lfIxr e.words != 0, e.ixr.toNat, false⟩
  if !s.en b (hlrPage key) then s.failJob b key blank 0x080D 0 0
  else if ga < 2 ^ 63 then
    if ga / 2 ^ 23 ≠ 0 then s.failJob b key blank 0x0801 0 ga
    else s.startDescriptor b key u e none (s.descAt b (jobAgent key) (fsLoc b face ga))
  else if ga % 2 ^ 63 / 8 ≠ 0 then s.failJob b key blank 0x0801 0 ga
  else s.startDescriptor b key u e none (s.slotWords b key (ga % 8))

/-- BEN_RSIG_LOG.SRC of a Hauler job (R115): a kicked slot of the Bench Hauler, which no Face issued, counts as Face 0's.
DEDUCED: log entry 47. -/
def haulSrc (key : Nat) (j : Job) : Nat := if key = 6 then 8 + (if j.kick.isSome then 0 else j.issuer) else key

/-- A unit's operation ends with its remote signal and its SIGNAL (R82, R110, R111): a malformed word raises 0x0309 and gives no
SIGNAL. -/
def State.finishWith (s : State) (b unit ag src : Nat) (e : QEntry) (w : Word) : State :=
  if rsigMalformed w then (s.sendRemote b ag src w).imprecise b unit e 0x0309 0
  else (s.sendRemote b ag src w).giveSignal b unit e.words

/-- A Hauler descriptor whose remote-signal word is malformed faults (R111, R220, R221): the discard, and HLR_FAULT with the
exception of the Face that issued it; no SIGNAL and no KDONE. DEDUCED: log entry 47. -/
def State.malformedHaul (s : State) (b key : Nat) (j : Job) : State :=
  (s.sendRemote b (jobAgent key) (haulSrc key j) j.rsig).failJob b key j 0x0309 0 0

/-- HAUL_COMPLETE (R214, R220): the counters, the remote signal, and the SIGNAL of a HAUL or the KDONE bit of a kicked run. A
SIGNAL that a full token queue holds keeps the Hauler (R106); a remote signal that finds the held list full waits (R324).
DEDUCED: log entry 47. -/
def execHaulComplete (h : HaulerId) (s : State) : Host.Outcome State Fault Refusal :=
  let b := h.bench.val
  let key := h.idx.val
  .next (match s.job b key with
    | none => s
    | some j =>
      if !j.ended || j.slotHeld then s
      else if rsigMalformed j.rsig then s.malformedHaul b key j
      else if wfld j.rsig 8 2 ≠ 0 && s.sigsFull b && s.taskState b == 1 && s.inTask b (jobAgent key) then s.noteStall b
      else
        let p := hlrPage key
        let s := (s.bump b p Off.hlrOps 1).countHaul b key j
        match j.kick with
        | some n =>
          let s := (s.setJob b key none).sendRemote b (jobAgent key) (haulSrc key j) j.rsig
          (s.setFld b p Off.hlrKdone n 1 1).raise b p 0x10000
        | none =>
          if s.signalRoom b j.issuer j.entry.words then
            (s.setJob b key none).finishWith b j.issuer (jobAgent key) (haulSrc key j) j.entry j.rsig
          else (s.sendRemote b (jobAgent key) (haulSrc key j) j.rsig).setJob b key (some { j with slotHeld := true }))

/-- The pending kicks of a Hauler, as a mask (R220). -/
def State.pendingKicks (s : State) (b key : Nat) : Nat := smGet (fun _ => 0) (s.bench b).kicks key

/-- A kick (R220). -/
def State.kick (s : State) (b key n : Nat) : State :=
  if !s.en b (hlrPage key) || !s.slotValid b key n then s.hlrFault b key 0x080E 0 0 none
  else s.updBench b (fun x => { x with kicks := smSet (fun _ => 0) x.kicks key (s.pendingKicks b key ||| 2 ^ n) })

/-- An entry that no long form has. -/
def noEntry : QEntry := ⟨[], false, 0, 0, 0, 0, 0, 0, 0⟩

/-- KICK_RUN_START (R220): at a descriptor boundary the lowest pending slot runs; quiesce takes no new work (R33). -/
def execKickRunStart (h : HaulerId) (s : State) : Host.Outcome State Fault Refusal :=
  let b := h.bench.val
  let key := h.idx.val
  .next (if (s.job b key).isSome || s.qsc b (hlrPage key) || !s.en b (hlrPage key) then s
    else match firstBelow 8 (nbit (s.pendingKicks b key)) with
      | none => s
      | some n =>
        let s1 := s.updBench b (fun x => { x with kicks := smSet (fun _ => 0) x.kicks key (s.pendingKicks b key - 2 ^ n) })
        let owner := if key = 6 then 0 else key
        s1.startDescriptor b key ⟨owner, key, false, 0, true⟩ noEntry (some n) (s.slotWords b key n))

/-- The Bench Hauler takes a queue head bound for it (R201), or, disabled, stops it with 0x080D (R221). -/
def State.haulHandReady (s : State) (b f : Nat) (e : QEntry) : Bool :=
  nbit (lfImm e.words) 0 && s.waitOk b f e.words && f != 6
    && (!s.en b 0x66 || !(decide (16 ≤ (s.bench b).haulQ.length) || s.qsc b 0x66))

/-- A queue head bound for the Bench Hauler is handed over; with the Bench Hauler disabled it stops with 0x080D (R201, R221). -/
def State.handOver (s : State) (b f : Nat) : State :=
  match (s.face b f).qHauler with
  | [] => s
  | e :: rest =>
    if !s.haulHandReady b f e then s
    else
      let t := (s.takeWait b f e.words).updFace b f (fun x => { x with qHauler := rest })
      if !s.en b 0x66 then (t.hlrFault b 6 0x080D 0 0 none).imprecise b f e 0x080D 0
      else t.updBench b (fun x => { x with haulQ := x.haulQ ++ [(f, e)] })

/-- A Face Hauler can start its queue's head: one not bound for the Bench Hauler, at a descriptor boundary, after pending kicks. -/
def State.haulHeadReady (s : State) (b f : Nat) (e : QEntry) : Bool :=
  !nbit (lfImm e.words) 0 && (s.job b f).isNone && s.pendingKicks b f == 0 && s.waitOk b f e.words
    && !(s.qsc b (hlrPage f) && s.en b (hlrPage f))

/-- A Face Hauler's queue head starts. -/
def State.startHaulHead (s : State) (b f : Nat) : State :=
  match (s.face b f).qHauler with
  | [] => s
  | e :: rest =>
    if !s.haulHeadReady b f e then s
    else ((s.takeWait b f e.words).updFace b f (fun x => { x with qHauler := rest })).startHaul b f f e

/-- The Bench Hauler starts its oldest accepted entry (R201). -/
def State.startBenchHaul (s : State) (b : Nat) : State :=
  match (s.bench b).haulQ with
  | [] => s
  | (f, e) :: rest =>
    if (s.job b 6).isSome || s.pendingKicks b 6 ≠ 0 then s
    else (s.updBench b (fun x => { x with haulQ := rest })).startHaul b 6 f e

/-- The Hauler page is reset or disabled while a descriptor runs (R221): 0x080D, for the Bench Hauler also for every entry it has
accepted. -/
def State.stopHauler (s : State) (b key : Nat) : State :=
  let s := match s.job b key with
    | some j => s.failJob b key j 0x080D 0 0
    | none => s
  if key = 6 then
    (s.bench b).haulQ.foldl (fun s x => (s.hlrFault b 6 0x080D 0 0 none).imprecise b x.1 x.2 0x080D 0)
      (s.updBench b (fun x => { x with haulQ := [] }))
  else s

end Sys2Proof.Machine
end

