-- ==== Sys2Proof/Machine/Gallery.lean ====
section
/-!
DEFINITION. The Gallery page, its atomic batches and prefetches, and the memory controllers' training and scrub (R236 to R256).
-/

namespace Sys2Proof.Machine

/-! ### Ways, flush, fence (R236, R237, R242) -/

/-- Every dirty home line written back; the lines stay, clean. -/
def State.writeBackAll (s : State) (b : Nat) : State :=
  let s1 := (s.bench b).lines.foldl (fun s g => s.writeBack g) s
  s1.updBench b (fun x => { x with lines := x.lines.map (fun g => { g with dirty := false }) })

/-- NSCR of a GAL_WAYS value. -/
def nscr (w : Nat) : Nat := fld w 0 5

/-- The ways of a GAL_WAYS value that are cache ways. -/
def isCacheWay (w k : Nat) : Bool := decide (nscr w ≤ k) && decide (k < nscr w + fld w 8 5)

/-- Every cache line invalidated. -/
def State.dropLines (s : State) (b : Nat) : State := s.updBench b (fun x => { x with lines := [] })

/-- Bytes of a memory from `a` on cleared. -/
def State.clearRange (s : State) (l n : Nat) : State := { s with mem := smClear s.mem (fun k => decide (l ≤ k) && decide (k < l + n)) }

/-- The lines that stay when the ways change their roles: those of ways that were and are cache (R236); which way holds a line is left
open. DESIGN CHOICE: log entry 53. -/
def keptLines (old new : Nat) (ls : List GLine) : List GLine :=
  let kept := (List.range 16).filter (fun k => isCacheWay old k && isCacheWay new k)
  let was := (List.range 16).filter (isCacheWay old)
  if kept = was then ls else ls.filter (fun g => kept.contains (Config.cacheWay g.line).val)

/-- An accepted enable gives the ways their roles (R236): ways 0 on are scratch, then cache, then speculative. New scratch ways
are zeroed and lost ones cleared; a way whose role changes to cache is empty, and one that was cache and is not loses its lines. Requests
wait until GALLERY_WAY_CLEAR_DONE. DESIGN CHOICE: log entry 53. -/
def State.assignWays (s : State) (b : Nat) : State :=
  let old := (s.bench b).ways
  let new := (s.reg b 0x70 Off.galWays).toNat
  if old = new then s
  else
    let lo := min (nscr old) (nscr new) * 0x800000
    let hi := max (nscr old) (nscr new) * 0x800000
    (s.clearRange (loc 3 b 0 lo) (hi - lo)).updBench b (fun x =>
      { x with lines := keptLines old new x.lines, ways := new, clearing := true })

/-- GALLERY_WAY_CLEAR_DONE (R236): STAT.BLK.CLR clears and the requests that waited go on. -/
def execGalleryWayClearDone (b : BenchId) (s : State) : Host.Outcome State Fault Refusal :=
  .next (if (s.bench b).clearing then (s.updBench b (fun x => { x with clearing := false })).advanceAll b else s)

/-- A write of GAL_FLUSH.OP (R237): OP 1 and OP 2 write back every dirty home line; OP 2 invalidates at the flush's end.
DEDUCED: log entry 54. -/
def State.galFlush (s : State) (b op : Nat) : State :=
  if op = 1 ∨ op = 2 then
    (s.writeBackAll b).updBench b (fun x => { x with flushing := true, flushInv := x.flushInv || op == 2 })
  else s

/-- GAL_FLUSH_DONE (R237): for OP 2, lines dirtied meanwhile are written back before every line is invalidated.
DEDUCED: log entry 54. -/
def execGalFlushDone (b : BenchId) (s : State) : Host.Outcome State Fault Refusal :=
  .next (if !(s.bench b).flushing then s
    else
      let s := if (s.bench b).flushInv then (s.writeBackAll b).dropLines b else s
      (s.updBench b (fun x => { x with flushing := false, flushInv := false })).raise b 0x70 0x20000)

/-- The epoch fence (R242). -/
def State.epochFence (s : State) (b : Nat) : State :=
  let s := s.updBench b (fun x => { x with lines := x.lines.filter (fun g => !g.pf) })
  let s := (List.range 7).foldl (fun s u => match s.job b (16 + u) with
    | some j => s.setJob b (16 + u) (some { j with marked := true })
    | none => s) s
  s.setFld b 0x70 Off.galEpoch 8 8 (s.rfld b 0x70 Off.galEpoch 8 8 + 1)

/-! ### Atomic batches and prefetches (R240, R243) -/

/-- The bytes of a collective descriptor. -/
def State.collDesc (s : State) (b u : Nat) (e : QEntry) : List Byte := s.bytesAs b (agentOf u) (fsLoc b u e.ga.toNat) 64

/-- A field of a descriptor. -/
def cdf (d : List Byte) (off n : Nat) : Nat := leNat ((d.drop off).take n)

/-- A job that a collective queue's Gallery operation starts as; `bytes` keeps its KIND. -/
def galJob (u : Nat) (e : QEntry) (d : List Byte) (todo : List Access) : Job :=
  { newJob u e with todo := todo, rsig := w32 (cdf d (if cdf d 0 1 = 0xA0 then 0x28 else 4) 4), bytes := cdf d 0 1 }

/-- A Gallery operation stops before it does anything (R240, R243). -/
def State.refuseGal (s : State) (b u : Nat) (e : QEntry) (code : Nat) : State := (s.galFault b u code).imprecise b u e code 0

/-- A malformed atomic batch, its descriptor off its 64-byte boundary among the cases (R243, R257). DEDUCED: log entry 42. -/
def batchBad (u : Nat) (ws : List Word) (ga : Nat) (d : List Byte) : Bool :=
  let n := cdf d 4 4
  let sz := atomSize (cdf d 2 1)
  let out := fun (a len : Nat) => decide (storeSize u < a + len)
  ga % 64 != 0 || lfIxr ws != 0 || fld (lfWord ws 3) 5 4 != 0 || decide (3 < cdf d 1 1) || decide (3 < cdf d 2 1) || decide (1 < cdf d 3 1) || n == 0
    || decide (4096 < n) || cdf d 0x2C 20 != 0 || out (cdf d 8 8) (8 * n) || out (cdf d 0x10 8) (sz * n)
    || (cdf d 1 1 == 3 && out (cdf d 0x18 8) (sz * n)) || (cdf d 3 1 == 1 && out (cdf d 0x20 8) (sz * n))

/-- An atomic batch starts (R243 to R245): its arrays are read, and its elements applied in index order. -/
def State.startBatch (s : State) (b u : Nat) (e : QEntry) (d : List Byte) : State :=
  if batchBad u e.words e.ga.toNat d then s.refuseGal b u e 0x090B
  else
    let ty := cdf d 2 1
    let sz := atomSize ty
    let rd := fun (off n i : Nat) => s.natAs b (agentOf u) (fsLoc b u (cdf d off 8 + n * i)) n
    let todo := (List.range (cdf d 4 4)).map (fun i => Access.atom (rd 8 8 i) (cdf d 1 1) ty (rd 0x10 sz i)
      (if cdf d 1 1 = 3 then rd 0x18 sz i else 0) (if cdf d 3 1 = 1 then some (fsLoc b u (cdf d 0x20 8 + sz * i)) else none) i)
    (s.setJob b (16 + u) (some (galJob u e d todo))).advance b (16 + u)

/-- A malformed prefetch, its descriptor off its 64-byte boundary among the cases (R240, R257). DEDUCED: log entry 42. -/
def prefetchBad (u : Nat) (ws : List Word) (ga : Nat) (d : List Byte) (lens : List Nat) : Bool :=
  let nr := cdf d 2 2
  ga % 64 != 0 || lfIxr ws != 0 || fld (lfWord ws 3) 5 4 != 0 || decide (1 < cdf d 1 1) || nr == 0 || decide (64 < nr) || cdf d 0x10 48 != 0
    || decide (storeSize u < cdf d 8 8 + 16 * nr) || lens.any (fun n => decide (2 ^ 32 < n))

/-- A prefetch starts (R240, R242): the fence first where it asks for one, then its lines in order. -/
def State.startPrefetch (s : State) (b u : Nat) (e : QEntry) (d : List Byte) : State :=
  let rd := fun (i o : Nat) => s.natAs b (agentOf u) (fsLoc b u (cdf d 8 8 + 16 * i + o)) 8
  let rs := (List.range (min 64 (cdf d 2 2))).map (fun i => (rd i 0, rd i 8))
  if prefetchBad u e.words e.ga.toNat d (rs.map (·.2)) then s.refuseGal b u e 0x090B
  else
    let s := if cdf d 1 1 = 1 then s.epochFence b else s
    let todo := rs.flatMap (fun r => if r.2 = 0 then [] else
      (List.range ((r.1 + r.2 - 1) / 128 - r.1 / 128 + 1)).map (fun i => Access.line (lineStart r.1 + 128 * i)))
    (s.setJob b (16 + u) (some (galJob u e d todo))).advance b (16 + u)

/-- A batch or a prefetch of the given KIND completes (R240, R245): its remote signal, then its SIGNAL, which a full token queue
may hold (R106). -/
def State.endGalJob (s : State) (b u kind : Nat) : State :=
  match s.job b (16 + u) with
  | none => s
  | some j =>
    if !j.ended || j.slotHeld || j.bytes ≠ kind then s
    else if wfld j.rsig 8 2 ≠ 0 && s.sigsFull b && s.taskState b == 1 && s.inTask b 8 then s.noteStall b
    else if rsigMalformed j.rsig || s.signalRoom b u j.entry.words then
      (s.setJob b (16 + u) none).finishWith b u 8 (16 + u) j.entry j.rsig
    else (s.sendRemote b 8 (16 + u) j.rsig).setJob b (16 + u) (some { j with slotHeld := true })

/-- ATOMIC_BATCH_COMPLETE (R245). -/
def execAtomicBatchComplete (u : UnitId) (s : State) : Host.Outcome State Fault Refusal := .next (s.endGalJob u.bench.val u.unit.val 0xA0)

/-- PREFETCH_COMPLETE (R240). -/
def execPrefetchComplete (u : UnitId) (s : State) : Host.Outcome State Fault Refusal := .next (s.endGalJob u.bench.val u.unit.val 0xA1)

/-- The GAL_ page is reset or disabled while batches or prefetches run (R257): 0x090C. -/
def State.stopGallery (s : State) (b : Nat) : State :=
  (List.range 7).foldl (fun s u => match s.job b (16 + u) with
    | some j => s.failJob b (16 + u) j 0x090C 0 0
    | none => s) s

/-! ### Training and scrub (R249 to R252) -/

/-- Spares of a stack in use. -/
def State.sparesUsed (s : State) (d p : Nat) : Nat :=
  (List.range 16).foldl (fun n i => n + (if s.rfld d p (Off.hbmLmap + 4 * i) 0 8 = 255 then 0 else 1)
    + (if s.rfld d p (Off.hbmLmap + 4 * i) 8 8 = 255 then 0 else 1)) 0

/-- Training of an HBM stack starts (R249): only while disabled, with the fused repairs applied first. -/
def State.trainHbm (s : State) (d p : Nat) : State :=
  if s.en d p then s.refuse d p 6 0xFFF 0x0922
  else
    let s := (List.range 16).foldl (fun s i =>
      let w := s.reg d p (Off.hbmLmap + 4 * i)
      let w := if wbit w 16 then w else wput w 0 8 255
      s.setReg d p (Off.hbmLmap + 4 * i) (if wbit w 17 then w else wput w 8 8 255)) s
    ((s.setFld d p Off.hbmTres 5 12 0).setFld d p Off.hbmTres 17 8 (s.sparesUsed d p)).setFld d p Off.stat 16 2 1

/-- A failing lane takes a free spare of its channel, spare A first; `none` where neither is free (R249). -/
def State.takeSpare (s : State) (d p ch lane : Nat) : Option State :=
  let o := Off.hbmLmap + 4 * ch
  if s.rfld d p o 0 8 = 255 then some (s.setFld d p o 0 8 lane)
  else if s.rfld d p o 8 8 = 255 then some (s.setFld d p o 8 8 lane)
  else none

/-- A lane that a spare of its channel already replaces is not tested (R249). -/
def State.laneSpared (s : State) (d p ch lane : Nat) : Bool :=
  let w := s.reg d p (Off.hbmLmap + 4 * ch)
  lane == wfld w 0 8 || lane == wfld w 8 8

/-- The failing lanes repaired in order: the first without a spare ends it. -/
def repairLanes (d p : Nat) : State → List (Nat × Nat) → Option (Nat × Nat) × State
  | s, [] => (none, s)
  | s, (ch, lane) :: ls =>
    if s.laneSpared d p (ch % 16) (lane % 256) then repairLanes d p s ls
    else match s.takeSpare d p (ch % 16) (lane % 256) with
    | some s => repairLanes d p s ls
    | none => (some (ch % 16, lane % 256), s)

/-- The training of an HBM stack ends (R249): the failing lanes found take spares; TRN reads 2 or 3, and TDONE is set. -/
def State.hbmTrained (s : State) (b p : Nat) (failing : List (Nat × Nat)) : State :=
  if s.rfld b p Off.stat 16 2 ≠ 1 then s
  else
    let r := repairLanes b p s failing
    let s := r.2.setFld b p Off.hbmTres 17 8 (r.2.sparesUsed b p)
    let s := match r.1 with
      | some (ch, lane) => (s.setFld b p Off.hbmTres 5 4 ch).setFld b p Off.hbmTres 9 8 lane
      | none => s
    (s.setFld b p Off.stat 16 2 (if r.1.isSome then 3 else 2)).raise b p 0x10000

/-- Training of an LPDDR5X package starts (R252, R256). -/
def State.trainStk (s : State) (d p : Nat) : State :=
  if s.en d p then s.refuse d p 6 0xFFF 0x0931
  else (s.setReg d p Off.stkTres 0).setFld d p Off.stat 16 2 1

/-- The training of a package ends (R252): a failing lane fails it and is recorded. -/
def State.stkTrained (s : State) (d p : Nat) (failing : List (Nat × Nat)) : State :=
  if s.rfld d p Off.stat 16 2 ≠ 1 then s
  else
    let s := match failing with
      | (ch, lane) :: _ => s.setReg d p Off.stkTres (w32 (lane % 256 * 256 + ch % 256))
      | [] => s
    (s.setFld d p Off.stat 16 2 (if failing.isEmpty then 2 else 3)).raise d p 0x10000

/-- The die, page and memory region of a controller. -/
def ctlOf : MemCtl → Nat × Nat × Nat
  | .hbm b k => (b.val, 0x74 + k.val, loc 1 b.val k.val 0)
  | .stk q k => (16 + q.val, 0x10 + k.val, loc 2 (16 + q.val) k.val 0)

/-- PATROL_SCRUB (R251, R252): with SCRUB = 1 the controller reads a line, corrects it and rewrites it; with ECC = 1 it counts what
it corrects, and records what it cannot correct, whose next read then ends with 0x0909. DESIGN CHOICE: log entry 57. -/
def execPatrolScrub (c : MemCtl) (line : Nat) (e : EccEvent) (s : State) : Host.Outcome State Fault Refusal :=
  let d := (ctlOf c).1
  let p := (ctlOf c).2.1
  let l := (ctlOf c).2.2 + lineStart line
  let cfg := s.reg d p Off.hbmCfg
  .next (if !s.en d p || !wbit cfg 4 || !wbit cfg 0 || 2 ^ 36 ≤ line then s
    else match e with
      | .clean => s
      | .corrected => s.bump d p Off.hbmCecc 1
      | .uncorrectable => { s.uncorrectable l with badLines := smSet (fun _ => false) s.badLines l true })

end Sys2Proof.Machine
end

