-- ==== Sys2Proof/Machine/Slab.lean ====
section
/-!
DEFINITION. The Slab arrays (R117 to R135): stationary loads, streaming operations, drains, and the checks that the control
core makes when it issues them. A load and a stream read each line once between their start and their
completion (R128), and a load's bank and a stream's accumulator words stand from then; a drain reads the accumulator when it starts,
and its stores are visible when it completes (R101, R127).
-/

namespace Sys2Proof.Machine

/-- The Slabs of a mask, in ascending order. -/
def maskSlabs (m : Nat) : List Nat := bitList 4 m

/-- SLB_GEOM.COLS of Slab `k` of Face `f` (R133). -/
def State.cols (s : State) (b f k : Nat) : Nat := s.rfld b (0x20 + 4 * f + k) Off.slbGeom 0 8

/-- The rows each masked Slab receives (R121): Slab, first row b(i), row count n(i). -/
def splitRows (cols : Nat → Nat) : List Nat → Nat → Nat → List (Nat × Nat × Nat)
  | [], _, _ => []
  | k :: ks, nrt, at_ => let n := min (cols k) (nrt - at_); (k, at_, n) :: splitRows cols ks nrt (at_ + n)

/-- P of a bank loaded with a format (R118). -/
def bankP : Fmt → Nat
  | .bf16 | .fp16 => 1
  | .mxE2m1 => 4
  | _ => 2

/-- Bytes of a stationary row (R118). -/
def rowBytes (f : Fmt) : Nat := 128 * bankP f * f.bits / 8

/-- Line pitch of a stream (R119). -/
def linePitch (f : Fmt) : Nat := if f.isMx then 288 else 256

/-- The byte offset of element `r` of vector `j` of a skewed stream whose groups hold 16 p elements (R119). -/
def skewOff (f : Fmt) (p j r : Nat) : Nat :=
  let g := r / (16 * p)
  (j + g) * linePitch f + g * 2 * p * f.bits + (r % (16 * p)) * f.bits / 8

/-- Element `r` of vector `j` of a skewed stream at `l0`, as raw bits; MXFP6 elements are packed within their group. -/
def State.streamElem (s : State) (b ag l0 : Nat) (f : Fmt) (p j r : Nat) : Nat :=
  let g := r / (16 * p)
  s.elemAs b ag (l0 + (j + g) * linePitch f + g * 2 * p * f.bits) f.bits (r % (16 * p))

/-- The MX scale byte of element `r` of vector `j` (R119). -/
def State.streamScale (s : State) (b ag l0 p j r : Nat) : Nat :=
  let g := r / (16 * p)
  s.natAs b ag (l0 + (j + g) * 288 + 256 + g * (p / 2) + r % (16 * p) / 32) 1

/-- IMM19 fields of TILE_LOAD_STATIONARY (R123). -/
def tlNrt (imm : Nat) : Nat := if fld imm 4 9 = 0 then 512 else fld imm 4 9

/-- The element S[c][r] that a load takes (R121): `row` is b(i) + c. -/
def State.loadElem (s : State) (b u ga gb imm : Nat) (f : Fmt) (row r : Nat) : Nat :=
  let base := fsLoc b u ga
  if !nbit imm 17 then s.elemAs b u (base + row * gb) f.bits r
  else if !nbit imm 18 then s.elemAs b u (base + r * gb) f.bits row
  else s.streamElem b u base f (bankP f) r (128 * gb + row)

/-- The bank that a load leaves in one Slab (R121, R122): elements at 512 c + r, pad cells unlisted. -/
def State.loadBank (s : State) (b u ga gb imm : Nat) (f : Fmt) (code at_ n : Nat) : Bank :=
  let groups := fld imm 13 3 + 1
  let rs := 16 * bankP f * groups
  { fmt := code, valid := false, rows := n, groups := groups,
    elem := ((List.range n).flatMap (fun c => (List.range rs).map (fun r => (512 * c + r, s.loadElem b u ga gb imm f (at_ + c) r)))).filter
      (fun e => e.2 != 0),
    scale := if f.isMx then ((List.range n).flatMap (fun c => (List.range (rs / 32)).map (fun k =>
      (16 * c + k, s.natAs b u (fsLoc b u ga + tlNrt imm * gb + 16 * (at_ + c) + k) 1)))).filter (fun e => e.2 != 0) else [] }

/-- A bank of a Slab by number. -/
def Slab.bank (x : Slab) (n : Nat) : Bank := if n = 0 then x.bank0 else x.bank1

/-- A bank of a Slab replaced. -/
def Slab.setBank (x : Slab) (n : Nat) (k : Bank) : Slab := if n = 0 then { x with bank0 := k } else { x with bank1 := k }

/-- Element S[c][r] of a bank, with its scale. DEDUCED: log entry 108. -/
def Bank.value (k : Bank) (c r : Nat) : Num :=
  let f := Fmt.ofCode k.fmt
  let w := smGet (fun _ => 0) k.elem (512 * c + r)
  if f.isMx then mxExact f (smGet (fun _ => 0) k.scale (16 * c + r / 32)) w else decodeElem f w

/-- The product of a cell (R64, R124): exact, and for MX formats flushed below 2^-126. -/
def cellProduct (mx : Bool) (a b : Num) : Num := if mx then mxProduct a b else Num.mul a b

/-- One output of a streaming operation (R124): the groups are summed exactly, rounded once each and added in order; `w` is
the streamed vector. -/
def dotOutput (mx : Bool) (p groups : Nat) (start : Word) (st w : Nat → Num) : Word × AFlags :=
  (List.range 8).foldl (fun acc g =>
    let prods := if g < groups then (List.range (16 * p)).map (fun i => cellProduct mx (st (16 * p * g + i)) (w (16 * p * g + i))) else []
    let ops := if g < groups then (List.range (16 * p)).flatMap (fun i => [st (16 * p * g + i), w (16 * p * g + i)]) else []
    let t := accAdd 0 (prods.foldl Num.add Num.zero)
    let r := accAdd acc.1 (of32 t.1)
    (r.1, acc.2.or ((opFlags (ops ++ prods) t.2).or r.2))) (start, .none)

/-- The accumulator words a streaming operation writes in one Slab (R122, R124), as (key, word), with its flags.
DEDUCED: log entry 108. -/
def State.streamSlab (s : State) (b u l0 v s0 : Nat) (fs : Fmt) (p : Nat) (accumulate : Bool) (x : Slab) (k : Bank) : List (Nat × Word) × AFlags :=
  let mx := fs.isMx
  (List.range v).foldl (fun out j =>
    let raw := (List.range (16 * p * k.groups)).map (fun r =>
      let e := s.streamElem b u l0 fs p j r
      if mx then mxExact fs (s.streamScale b u l0 p j r) e else decodeElem fs e)
    (List.range k.rows).foldl (fun out c =>
      let key := 512 * c + s0 + j
      let start := if accumulate then smGet (fun _ => 0) x.acc key else 0
      let d := dotOutput mx p k.groups start (k.value c) (fun r => raw.getD r Num.zero)
      (out.1 ++ [(key, d.1)], out.2.or d.2)) out) ([], .none)

/-- An accumulator with words written. -/
def setAcc (m : SMap Word) (ws : List (Nat × Word)) : SMap Word := ws.foldl (fun m w => smSet (fun _ => 0) m w.1 w.2) m

/-- The live-row counts after an operation wrote slots s0 to s0 + v − 1 of a bank of `n` rows (R122). -/
def setLive (m : SMap Nat) (s0 v n : Nat) : SMap Nat :=
  (List.range 32).foldl (fun m q => if s0 / 16 ≤ q && q ≤ (s0 + v - 1) / 16 then smSet (fun _ => 0) m q n else m) m

/-- The tiles that a drain reads (R126): slot tiles in ascending order, for each the Slabs in ascending order; `bad` says which
accumulator words have bad parity and read as the canonical NaN, and `on` names the Slabs whose part is not stopped (R132). A
tile keeps its Slab's place in the mask, the Slab, and its first drained slot. -/
def State.drainTiles (s : State) (b u mask s0 slots : Nat) (on : List Nat) (bad : Nat → Nat → Nat → Bool) : List (Nat × Nat × Nat × (Nat → Nat → Word) × Nat) :=
  (List.range (slots / 16)).flatMap (fun q =>
    let ks := maskSlabs mask
    ((List.range ks.length).filter (fun x => on.contains (ks.getD x 0))).map (fun x =>
      let k := ks.getD x 0
      let sl := s.slab b (4 * u + k)
      (x, k, 16 * q, (fun c i => if bad k c (s0 + 16 * q + i) then nan32 else smGet (fun _ => 0) sl.acc (512 * c + s0 + 16 * q + i)),
        smGet (fun _ => 0) sl.live ((s0 + 16 * q) / 16))))

/-- The sum of COLS of the masked Slabs before Slab `k` (R126). -/
def State.colsBefore (s : State) (b u mask k : Nat) : Nat :=
  ((maskSlabs mask).filter (· < k)).foldl (fun a i => a + s.cols b u i) 0

/-- The sum of COLS over a mask. -/
def State.colsOf (s : State) (b u mask : Nat) : Nat := (maskSlabs mask).foldl (fun a i => a + s.cols b u i) 0

/-- The address of element (c, s') of a drain with DQ = 0 and SPARSE = 0 (R126). -/
def drainAddr (ord ga pitch m x o c s' : Nat) : Nat :=
  match ord with
  | 0 => ga + (o + c) * pitch + 4 * s'
  | 1 => ga + s' * pitch + 4 * (o + c)
  | 2 => ga + (m * (s' / 16) + x) * 8192 + 64 * c + 4 * (s' % 16)
  | _ => ga + (m * (s' / 16) + x) * 8192 + 512 * (s' % 16) + 4 * c

/-- The stores of a plain drain (R126): rows below the tile's live-row count, as FP32. -/
def State.drainStores (s : State) (b u mask ord ga pitch s0 slots : Nat) (on : List Nat) (bad : Nat → Nat → Nat → Bool) : List (Nat × List Byte) :=
  let m := (maskSlabs mask).length
  (s.drainTiles b u mask s0 slots on bad).flatMap (fun t =>
    let o := s.colsBefore b u mask t.2.1
    (List.range t.2.2.2.2).flatMap (fun c => (List.range 16).map (fun i =>
      (fsLoc b u (drainAddr ord ga pitch m t.1 o c (t.2.2.1 + i)), leBytes 4 (t.2.2.2.1 c i).toNat))))

/-- The tile-queue entries of a drain with DQ = 1 (R126, R143): 2,048 words in row-major order, 128 × 16 for ORD 0 and
16 × 128 for ORD 1. -/
def State.drainEntries (s : State) (b u mask ord s0 slots : Nat) (on : List Nat) (bad : Nat → Nat → Nat → Bool) : List Tile :=
  let ts := s.drainTiles b u mask s0 slots on bad
  (List.range ts.length).map (fun n =>
    match ts[n]? with
    | some t =>
      let vals := if ord = 0 then (List.range 2048).map (fun e => t.2.2.2.1 (e / 16) (e % 16))
        else (List.range 2048).map (fun e => t.2.2.2.1 (e % 128) (e / 128))
      ⟨vals, t.2.2.2.2, ord, n + 1 == ts.length⟩
    | none => ⟨[], 0, ord, false⟩)

/-- Parity errors recorded (R135): SLB_PAR holds the first, SLB_PARCNT counts, IRQ_STAT.BLK.PAR is set. The word is a
free value, since its bits are not those that were written. DESIGN CHOICE: log entry 35. -/
def State.parityErrors (s : State) (b u : Nat) (hits : List ParityHit) : State :=
  hits.foldl (fun s h =>
    let p := 0x20 + 4 * u + h.slab.val
    let t := (s.updSlab b (4 * u + h.slab.val) (fun x =>
      { x with acc := setAcc x.acc [(512 * h.col.toNat + h.slot.toNat, Config.badParityWord s.fresh)] })).draw
    ((t.recordFirst b p Off.slbPar (h.col.toNat * 512 + h.slot.toNat)).bump b p Off.slbParcnt 1).raise b p 0x10000) s

/-- A parity hit's Slab raises 0x040B (SLB_CFG.PARX = 1, R135). -/
def State.parityRaises (s : State) (b u : Nat) (hits : List ParityHit) : Bool :=
  hits.any (fun h => wbit (s.reg b (0x20 + 4 * u + h.slab.val) Off.slbCfg) 0)

/-- A masked Slab's page is disabled (R79, R132). -/
def State.slabOff (s : State) (b u k : Nat) : Bool := !s.en b (0x20 + 4 * u + k)

/-- The format code of the last load issued for a Slab and bank, 0 when none is tracked (R131): the code plus 1. -/
def Face.tracked (f : Face) (k bank : Nat) : Nat := smGet (fun _ => 0) f.loadTrack (2 * k + bank)

/-- The Face-store bytes that a stationary load reads, as a range from GA (R121, R131). -/
def loadExtent (f : Fmt) (gb imm : Nat) : Nat :=
  let nrt := tlNrt imm
  let rs := 16 * bankP f * (fld imm 13 3 + 1)
  if !nbit imm 17 then (if f.isMx then nrt * gb + 16 * nrt else (nrt - 1) * gb + rowBytes f)
  else if !nbit imm 18 then (rs - 1) * gb + elemBytes f.bits nrt
  else (rs + 7) * 256

/-- The precise faults of the Slab long forms from 0x0103 on, in the order of R84 and R131: formats, then 0x020D, then
0x0401 to 0x0408, then 0x0206 and 0x0205. DEDUCED: log entry 42. -/
def State.slabFaults (s : State) (b u : Nat) (ws : List Word) (ga gb gc : Nat) : List (Bool × Nat × Nat) :=
  let imm := lfImm ws
  let mask := fld imm 0 4
  let fa := lfFmtA ws
  let fb := lfFmtB ws
  let f := s.face b u
  let offered := fun (x : Fmt) => x.isMx || x == .bf16 || x == .fp16 || x == .e4m3 || x == .e5m2 || x == .int8
  let off := ((maskSlabs mask).any (s.slabOff b u), 0x020D, 0)
  let align := (ga % 32 != 0, 0x0206, ga)
  let lop := lfLop ws
  if lop = 0x03 then
    let nrt := tlNrt imm
    let tr := nbit imm 17
    let skw := nbit imm 18
    [(fa == .splLo, 0x0104, 0), (!offered fa, 0x0101, 0), off, (mask == 0, 0x0401, 0),
      ((skw && !tr) || ((skw || tr) && fa.isMx) || (skw && (decide (bankP fa ≤ gb) || decide (128 * bankP fa < 128 * gb + nrt))), 0x0405, 0),
      (!skw && (gb % 32 != 0 || decide (gb < if tr then elemBytes fa.bits nrt else rowBytes fa)), 0x0406, 0),
      (decide (s.colsOf b u mask < nrt), 0x0408, 0), align,
      (decide (0x800000 < ga + loadExtent fa gb imm), 0x0205, ga)]
  else if lop = 0x04 then
    let ord := fld imm 4 2
    let dq := nbit imm 6
    let sparse := nbit imm 7
    let pitch := 64 * fld imm 8 7
    let slots := 32 * (fld imm 15 4 + 1)
    let cols := s.colsOf b u mask
    let m := (maskSlabs mask).length
    let need := if ord = 0 then 4 * slots else if ord = 1 then 4 * cols else 0
    let ext := match ord with
      | 0 => (cols - 1) * pitch + 4 * slots
      | 1 => (slots - 1) * pitch + 4 * cols
      | n => (m * (slots / 16) - 1) * 8192 + (let c := s.cols b u ((maskSlabs mask).getLastD 0); if n = 2 then 64 * c else 7680 + 4 * c)
    [(fb == .splLo, 0x0104, 0), (fb != .fp32, 0x0101, 0), off, (mask == 0, 0x0401, 0),
      (gc % 16 != 0 || decide (512 < gc + slots), 0x0402, 0),
      (if dq then pitch != 0 else if sparse then false else if ord < 2 then decide (pitch < need) else pitch != 0, 0x0406, 0),
      (dq && (decide (2 ≤ ord) || sparse || ga != 0), 0x0407, 0), align,
      (!dq && decide (0x800000 < ga + (if sparse then 64 else ext)), 0x0205, ga)]
  else
    let bank := fld imm 4 1
    let ks := maskSlabs mask
    [(fa == .splLo || fb == .splLo, 0x0104, 0), (!offered fa || !offered fb, 0x0101, 0), ((pairRate fa fb).isNone, 0x0103, 0), off,
      (mask == 0, 0x0401, 0), (gb == 0 || decide (512 < gc + gb), 0x0402, 0),
      (ks.any (fun k => f.tracked k bank == 0), 0x0403, 0),
      (ks.any (fun k => Fmt.ofCode (f.tracked k bank - 1) != fa) || (fa == .mxE2m1 && fb != .mxE2m1), 0x0404, 0), align,
      (decide (0x800000 < ga + (gb + 7) * linePitch fb), 0x0205, ga)]

end Sys2Proof.Machine
end

