-- ==== Sys2Proof/Machine/Chute.lean ====
section
/-!
DEFINITION. The Chute (R138 to R142, R159, R161): its checks at issue, its sums, and its completion. It reads each byte of
its vectors and its matrix once between its start and its completion; with ACC it reads each result when it writes it (R141).
-/

namespace Sys2Proof.Machine

/-- The page of a Face's Chute. -/
def chuPage (u : Nat) : Nat := 0x40 + u

/-- The operands of a CHUTE_MV (R138, R139): addresses, lengths, pitches, formats and the P of their pair. -/
structure ChuteOp where
  ma : Nat
  xa : Nat
  ya : Nat
  k : Nat
  n : Nat
  m : Nat
  acc : Bool
  skw : Bool
  fa : Fmt
  fb : Fmt
  p : Nat

/-- The operands that registers and fields give. -/
def chuteOp (ws : List Word) (ga gb gc : Nat) : ChuteOp :=
  let imm := lfImm ws
  { ma := fld ga 0 23, xa := fld gb 0 23, ya := fld gc 0 23, k := fld gb 32 16, n := fld gc 32 16, m := fld imm 0 4, acc := nbit imm 4,
    skw := nbit imm 5, fa := lfFmtA ws, fb := lfFmtB ws, p := (pairRate (lfFmtA ws) (lfFmtB ws)).getD 1 }

/-- RP, XP and YP (R139). -/
def ChuteOp.rp (o : ChuteOp) : Nat := 64 * ceilDiv (o.k * o.fa.bits) 512
/-- The pitch of the vectors. -/
def ChuteOp.xp (o : ChuteOp) : Nat := 64 * ceilDiv (o.k * o.fb.bits) 512
/-- The pitch of the results. -/
def ChuteOp.yp (o : ChuteOp) : Nat := 64 * ceilDiv o.n 16
/-- The extent of the matrix from MA. -/
def ChuteOp.matrixLen (o : ChuteOp) : Nat := if o.skw then (o.n + 7) * 256 else (o.n - 1) * o.rp + elemBytes o.fa.bits o.k
/-- The extent of the vectors from XA. -/
def ChuteOp.vectorLen (o : ChuteOp) : Nat := (o.m - 1) * o.xp + elemBytes o.fb.bits o.k
/-- The extent of the results from YA. -/
def ChuteOp.resultLen (o : ChuteOp) : Nat := (o.m - 1) * o.yp + 4 * o.n

/-- The precise faults of CHUTE_MV from the format codes on, in the order of R84, R142. -/
def State.chuteFaults (s : State) (b u : Nat) (ws : List Word) (ga gb gc : Nat) : List (Bool × Nat × Nat) :=
  let o := chuteOp ws ga gb gc
  let offered := fun (x : Fmt) => x == .bf16 || x == .fp16 || x == .e4m3 || x == .e5m2 || x == .int8
  let beyond := fun (a n : Nat) => decide (0x800000 < a + n)
  [(o.fa == .splLo || o.fb == .splLo, 0x0104, 0), (!offered o.fa || !offered o.fb, 0x0101, 0), ((pairRate o.fa o.fb).isNone, 0x0103, 0),
    (!s.en b (chuPage u), 0x020D, 0), (o.m == 0 || decide (8 < o.m), 0x0481, 0),
    (o.k == 0 || o.n == 0 || decide (65536 < o.m * o.xp), 0x0482, 0), (o.skw && decide (128 * o.p < o.k), 0x0483, 0),
    (ga / 2 ^ 23 != 0 || fld gb 23 9 != 0 || fld gb 48 16 != 0 || fld gc 23 9 != 0 || fld gc 48 16 != 0 || lfImm ws / 64 != 0, 0x0484, 0),
    (rangesMeet o.ya o.resultLen o.ma o.matrixLen || rangesMeet o.ya o.resultLen o.xa o.vectorLen, 0x0485, 0),
    (o.ma % 64 != 0, 0x0206, o.ma), (o.xa % 64 != 0, 0x0206, o.xa), (o.ya % 64 != 0, 0x0206, o.ya),
    (beyond o.ma o.matrixLen, 0x0205, o.ma), (beyond o.xa o.vectorLen, 0x0205, o.xa), (beyond o.ya o.resultLen, 0x0205, o.ya)]

/-- Matrix element W[n][r] (R139). -/
def State.chuteElem (s : State) (b u : Nat) (o : ChuteOp) (n r : Nat) : Nat :=
  if o.skw then s.streamElem b u (fsLoc b u o.ma) o.fa o.p n r else s.elemAs b u (fsLoc b u (o.ma + n * o.rp)) o.fa.bits r

/-- The group sums of one result, each rounded once (R140), with the flags of their operands. -/
def State.chuteSums (s : State) (b u : Nat) (o : ChuteOp) (m n : Nat) : List Word × AFlags :=
  (List.range (ceilDiv o.k (16 * o.p))).foldl (fun out g =>
    let rs := (List.range (min (16 * o.p) (o.k - 16 * o.p * g))).map (fun i => 16 * o.p * g + i)
    let ws := rs.map (fun r => decodeElem o.fa (s.chuteElem b u o n r))
    let xs := rs.map (fun r => decodeElem o.fb (s.elemAs b u (fsLoc b u (o.xa + m * o.xp)) o.fb.bits r))
    let ps := List.zipWith Num.mul ws xs
    let t := accAdd 0 (ps.foldl Num.add Num.zero)
    (out.1 ++ [t.1], out.2.or (opFlags (ws ++ xs ++ ps) t.2))) ([], .none)

/-- The operands of an entry of the Chute queue. -/
def entryChute (e : QEntry) : ChuteOp := chuteOp e.words e.ga.toNat e.gb.toNat e.gc.toNat

/-- The Face-store places of the matrix and the vectors (R139). -/
def chuteReads (b u : Nat) (e : QEntry) (k : Nat) : Bool :=
  let o := entryChute e
  inRange (fsLoc b u o.ma) o.matrixLen k || inRange (fsLoc b u o.xa) o.vectorLen k

/-- A CHUTE_MV starts (R141). -/
def State.startChute (s : State) (b u : Nat) (e : QEntry) : State :=
  let op : RunOp := { entry := e, writes := [], rsig := none, slabs := [], lo := 0, hi := 0, tiles := [],
                      failed := false, ended := false, tally := [], src := some (s.fresh, s.seenCells b u (chuteReads b u e)) }
  (s.updFace b u (fun f => { f with chute := f.chute ++ [op] })).draw

/-- A result from its start value and its group sums (R140). DEDUCED: log entry 36. -/
def chuteResult (start : Word) (sums : List Word) : Word × AFlags :=
  sums.foldl (fun a c => let r := accAdd a.1 (of32 c); (r.1, a.2.or r.2)) (start, .none)

/-- The stores and flags of a completing CHUTE_MV (R140, R141): each byte of the matrix and the vectors is read once while it runs,
each result of ACC when it is written. DEDUCED: log entry 36. -/
def State.chuteStores (s : State) (b u : Nat) (op : RunOp) : List (Nat × List Byte) × AFlags :=
  match op.src with
  | none => ([], .none)
  | some x =>
    let o := entryChute op.entry
    let v := s.lateReads b u (chuteReads b u op.entry) (· / 64) x.1 x.2
    (List.range o.m).foldl (fun out m => (List.range o.n).foldl (fun out n =>
      let l := fsLoc b u (o.ya + m * o.yp + 4 * n)
      let sums := v.chuteSums b u o m n
      let r := chuteResult (if o.acc then w32 (s.natAs b u l 4) else 0) sums.1
      (out.1 ++ [(l, leBytes 4 r.1.toNat)], out.2.or (sums.2.or r.2))) out) ([], .none)

/-- The sticky flags a mask gives. -/
def aflagsOf (m : Nat) : AFlags := ⟨nbit m 0, nbit m 1, nbit m 2⟩

/-- CHUTE_COMPLETE (R141): the results of the oldest operation become visible, and the SIGNAL is given, or waits for room in its queue (R106). A store
that finds no held line free waits (R324). DESIGN CHOICE: log entry 37. -/
def execChuteComplete (u : UnitId) (s : State) : Host.Outcome State Fault Refusal :=
  let b := u.bench.val
  let f := u.unit.val
  .next (match (s.face b f).chute with
    | [] => s
    | op :: rest =>
      if op.ended then s
      else
        let r := s.chuteStores b f op
        if s.storeStalls b f r.1 then s.noteStall b
        else
          let s := ((s.storesAs b f r.1).addAFlags b f r.2).bump b (chuPage f) Off.chuOps 1
          let s := s.spend b (chuPage f) Off.chuBusy Off.chuLost
          if s.signalRoom b f op.entry.words then (s.giveSignal b f op.entry.words).updFace b f (fun x => { x with chute := rest })
          else s.updFace b f (fun x => { x with chute := { op with ended := true, src := none } :: rest }))

/-- The Chute's page is reset or disabled while operations run (R142): they give no SIGNAL. -/
def State.stopChute (s : State) (b u : Nat) : State :=
  (s.face b u).chute.foldl (fun s op => s.imprecise b u op.entry 0x0486 0) (s.updFace b u (fun f => { f with chute := [] }))

end Sys2Proof.Machine
end

