-- ==== Sys2Proof/Machine/Sett.lean ====
section
/-!
DEFINITION. The scalar short forms of Sett (R70 to R75, R84 to R86, R98, R106): one definition for each row, over the shared
shape `issue` (the core stands on a word of the row) and `sequential` (faults in the order of R84, then the effect).
-/

namespace Sys2Proof.Machine

/-- Faults a PR or FN field that a scalar instruction does not use must not hold (R72). DEDUCED: log entry 21. -/
def prZero (w : Word) : Bool × Nat × Nat := (sfPr w != 0, 0x0202, 0)

/-- A SYS word with subop `d` (R72). -/
def isSys (d : Nat) (w : Word) : Bool := !isLong w && sfOp w == 0 && sfD w == d

/-- SYS NOP (R72). DEDUCED: log entry 21. -/
def execSysNop (c : CoreId) (s : State) : Host.Outcome State Fault Refusal :=
  .next (s.issue c (fun w => isSys 0 w || (!isLong w && sfOp w == 0 && decide (4 < sfD w)))
    (fun w => s.sequential c [(sfD w != 0, 0x0202, 0)] s))

/-- A core reaches PARK (R91): the tag is recorded, IRQ_STAT.PARK set, and the Face, or the Molt once its last strand has
parked, stands parked with cause 1. DEDUCED: log entry 25. -/
def State.parkCore (s : State) (c : CoreId) (tag : Nat) : State :=
  let b := coreBench c
  let u := coreUnit c
  let s := (s.updCore (coreKey c) (fun k => { k with stopped := true })).updFace b u (fun f => { f with tag := tag })
  let s := s.raise b (ctlPage u) 0x10000
  if (s.coreKeys b u).all (fun k => (s.core k).stopped) then s.parkUnit b u 1 else s

/-- SYS PARK (R91). DEDUCED: log entry 21. -/
def execPark (c : CoreId) (s : State) : Host.Outcome State Fault Refusal :=
  .next (s.issue c (isSys 1) (fun w => s.sequential c [] (s.parkCore c (sfImm15 w % 4096))))

/-- SYS TRAP (R82, R85): always raises 0x0207 with its tag; it does not continue in sequence (R86). DEDUCED: log entry 21. -/
def execTrap (c : CoreId) (s : State) : Host.Outcome State Fault Refusal :=
  .next (s.issue c (isSys 2) (fun w => s.precise c 0x0207 (sfImm15 w % 4096) false))

/-- SYS FENCE (R80): the model's stores are visible at once, so the fence is done when it issues.
DEDUCED: log entries 21, 24. -/
def execFence (c : CoreId) (s : State) : Host.Outcome State Fault Refusal :=
  .next (s.issue c (isSys 3) (fun _ => s.sequential c [] s))

/-- SYS SWAP (R72, R89): requests the swap; the core waits until it commits. DEDUCED: log entries 21, 25. -/
def execSwap (c : CoreId) (s : State) : Host.Outcome State Fault Refusal :=
  .next (s.issue c (isSys 4) (fun w =>
    s.updFace (coreBench c) (coreUnit c) (fun f => { f with swap := some ⟨sfImm15 w * 4, coreKey c, false⟩ })))

/-- The ALU functions (R72). -/
def aluOp (fn : Nat) (a b : DWord) : DWord :=
  match fn with
  | 0x00 => a + b
  | 0x01 => a - b
  | 0x02 => a &&& b
  | 0x03 => a ||| b
  | 0x04 => a ^^^ b
  | 0x05 => a <<< (b.toNat % 64)
  | 0x06 => a >>> (b.toNat % 64)
  | 0x07 => a.sshiftRight (b.toNat % 64)
  | 0x08 => a * b
  | 0x09 => BitVec.ofNat 64 (a.toNat * b.toNat / 2 ^ 64)
  | 0x0A => if a.slt b then 1 else 0
  | 0x0B => if a.ult b then 1 else 0
  | 0x0C => if a.slt b then a else b
  | 0x0D => if a.slt b then b else a
  | 0x0E => if a.ult b then a else b
  | _ => if a.ult b then b else a

/-- A core with a general register written. -/
def State.writeG (s : State) (c : CoreId) (n : Nat) (v : DWord) : State := s.updCore (coreKey c) (fun k => k.setG n v)

/-- A general register of a core. -/
def State.readG (s : State) (c : CoreId) (n : Nat) : DWord := (s.core (coreKey c)).g n

/-- The major opcodes that no row of R72 lists; they raise 0x0201 and are taken with the ALU row. -/
def reservedOp (op : Nat) : Bool := op == 0x0F || op == 0x19 || decide (0x1A < op)

/-- ALU (R72). -/
def execAlu (c : CoreId) (s : State) : Host.Outcome State Fault Refusal :=
  .next (s.issue c (fun w => !isLong w && (sfOp w == 0x01 || reservedOp (sfOp w))) (fun w =>
    s.sequential c [(sfOp w != 0x01, 0x0201, 0), (sfPr w != 0 || decide (0x0F < sfFn w), 0x0202, 0)]
      (s.writeG c (sfD w) (aluOp (sfFn w) (s.readG c (sfA w)) (s.readG c (sfB w))))))

/-- The shape of an instruction that writes gD from gA and the signed immediate. -/
def State.immediate (s : State) (c : CoreId) (op : Nat) (f : DWord → DWord → DWord) : State :=
  s.issue c (fun w => !isLong w && sfOp w == op) (fun w =>
    s.sequential c [] (s.writeG c (sfD w) (f (s.readG c (sfA w)) (immDword w))))

/-- ADDI (R72). -/
def execAddi (c : CoreId) (s : State) : Host.Outcome State Fault Refusal := .next (s.immediate c 0x02 (· + ·))

/-- ANDI (R72). -/
def execAndi (c : CoreId) (s : State) : Host.Outcome State Fault Refusal := .next (s.immediate c 0x03 (· &&& ·))

/-- ORI (R72). -/
def execOri (c : CoreId) (s : State) : Host.Outcome State Fault Refusal := .next (s.immediate c 0x04 (· ||| ·))

/-- XORI (R72). -/
def execXori (c : CoreId) (s : State) : Host.Outcome State Fault Refusal := .next (s.immediate c 0x05 (· ^^^ ·))

/-- SHI (R72): IMM15[7:6] selects SLL, SRL or SRA, IMM15[5:0] the amount; 3 there, or a bit of IMM15[14:8], is reserved. -/
def execShi (c : CoreId) (s : State) : Host.Outcome State Fault Refusal :=
  .next (s.issue c (fun w => !isLong w && sfOp w == 0x06) (fun w =>
    let k := fld (sfImm15 w) 6 2
    let n := fld (sfImm15 w) 0 6
    let a := s.readG c (sfA w)
    s.sequential c [(k == 3 || fld (sfImm15 w) 8 7 != 0, 0x0202, 0)]
      (s.writeG c (sfD w) (if k = 0 then a <<< n else if k = 1 then a >>> n else a.sshiftRight n))))

/-- MOVW (R72): a halfword of gD from IMM16, the other bits 0 (MODE 0) or kept (MODE 1). -/
def execMovw (c : CoreId) (s : State) : Host.Outcome State Fault Refusal :=
  .next (s.issue c (fun w => !isLong w && sfOp w == 0x07) (fun w =>
    let hw := wfld w 12 2
    let mode := wfld w 14 2
    let imm := wfld w 16 16
    let old := if mode = 1 then (s.readG c (sfD w)).toNat else 0
    s.sequential c [(decide (1 < mode), 0x0202, 0)] (s.writeG c (sfD w) (BitVec.ofNat 64 (putFld old (16 * hw) 16 imm)))))

/-- The data address of a scalar load or store (R72): gA + IMM12. -/
def memAddr (a : DWord) (w : Word) : Nat := (a + BitVec.ofInt 64 (sext 12 (wfld w 17 12))).toNat

/-- The faults of a data access of `n` bytes aligned to `al` (R75, R84): 0x0206 comes before 0x0205. -/
def accessFaults (u a n al : Nat) : List (Bool × Nat × Nat) :=
  [(a % al != 0, 0x0206, a), (decide (storeSize u < a + n), 0x0205, a)]

/-- LD (R72, R75): SZ 0 to 3 unsigned, 4 to 6 signed. -/
def execLd (c : CoreId) (s : State) : Host.Outcome State Fault Refusal :=
  .next (s.issue c (fun w => !isLong w && sfOp w == 0x08) (fun w =>
    let sz := wfld w 29 3
    let n := 2 ^ (sz % 4)
    let a := memAddr (s.readG c (sfA w)) w
    let v := s.natAs (coreBench c) (agentOf (coreUnit c)) (fsLoc (coreBench c) (coreUnit c) a) n
    s.sequential c ((sz == 7, 0x0202, 0) :: accessFaults (coreUnit c) a n n)
      (s.writeG c (sfD w) (if sz < 4 then BitVec.ofNat 64 v else BitVec.ofInt 64 (sext (8 * n) v)))))

/-- A store's address and bytes: SZ gives 1, 2, 4 or 8 of gS's low bytes (R72). -/
def storeOf (s : State) (c : CoreId) (w : Word) : Nat × List Byte :=
  (fsLoc (coreBench c) (coreUnit c) (memAddr (s.readG c (sfA w)) w), leBytes (2 ^ (wfld w 29 3 % 4)) (s.readG c (sfD w)).toNat)

/-- ST (R72, R75). A store that a full shadow holds back has not issued (R324). -/
def execSt (c : CoreId) (s : State) : Host.Outcome State Fault Refusal :=
  .next (s.issue c (fun w => !isLong w && sfOp w == 0x09) (fun w =>
    let sz := wfld w 29 3
    let n := 2 ^ (sz % 4)
    let a := memAddr (s.readG c (sfA w)) w
    let st := storeOf s c w
    let ag := agentOf (coreUnit c)
    let faults := (decide (3 < sz), 0x0202, 0) :: accessFaults (coreUnit c) a n n
    if faults.all (fun f => !f.1) && s.storeStalls (coreBench c) ag [st] then s.noteStall (coreBench c)
    else s.sequential c faults (s.storeAs (coreBench c) ag st.1 st.2)))

/-- The branch conditions (R72). -/
def brCond (k : Nat) (a b : DWord) : Bool :=
  match k with
  | 0 => a == b
  | 1 => a != b
  | 2 => a.slt b
  | 3 => !a.slt b
  | 4 => a.ult b
  | _ => !a.ult b

/-- A jump to an offset that may lie outside the bank: 0x0204 there, before any effect (R86). -/
def State.jump (s : State) (c : CoreId) (target : Int) (eff : State) : State :=
  if target < 0 || 0x1FFFF < target then s.precise c 0x0204 0 false else eff.setPc c target.toNat

/-- BR (R72, R86): A [11:7], B [16:12], COND [19:17], OFF12 [31:20] in words. -/
def execBr (c : CoreId) (s : State) : Host.Outcome State Fault Refusal :=
  .next (s.issue c (fun w => !isLong w && sfOp w == 0x0A) (fun w =>
    let k := wfld w 17 3
    if k ≤ 5 && brCond k (s.readG c (sfD w)) (s.readG c (sfA w)) then
      s.jump c (((s.core (coreKey c)).pc : Int) + 4 * sext 12 (wfld w 20 12)) s
    else s.sequential c [(decide (5 < k), 0x0202, 0)] s))

/-- JAL (R72, R86). -/
def execJal (c : CoreId) (s : State) : Host.Outcome State Fault Refusal :=
  .next (s.issue c (fun w => !isLong w && sfOp w == 0x0B) (fun w =>
    let pc := (s.core (coreKey c)).pc
    s.jump c ((pc : Int) + 4 * sext 20 (wfld w 12 20)) (s.writeG c (sfD w) (BitVec.ofNat 64 (pc + 4)))))

/-- JALR (R72, R84, R86): a target that is not a multiple of 4 raises 0x0203 before the bank is checked.
DEDUCED: log entry 116. -/
def execJalr (c : CoreId) (s : State) : Host.Outcome State Fault Refusal :=
  .next (s.issue c (fun w => !isLong w && sfOp w == 0x0C) (fun w =>
    let pc := (s.core (coreKey c)).pc
    let t := (s.readG c (sfA w) + immDword w).toNat
    if t % 4 ≠ 0 then s.precise c 0x0203 0 false
    else s.jump c t (s.writeG c (sfD w) (BitVec.ofNat 64 (pc + 4)))))

/-- The value of a system register, where the core has it (R69, R104, R313, R314). -/
def State.csrValue (s : State) (c : CoreId) (n : Nat) : Option DWord :=
  let b := coreBench c
  let u := coreUnit c
  let f := s.face b u
  if n = 0x000 then some (BitVec.ofNat 64 (u + 256 * b))
  else if n = 0x001 then some (BitVec.ofNat 64 (s.benchCtx b))
  else if n = 0x002 then some (BitVec.ofNat 64 (s.bench b).cycle)
  else if n = 0x003 then some (BitVec.ofNat 64 f.bank.toNat)
  else if n = 0x004 then some (BitVec.ofNat 64 f.qocc)
  else if 0x010 ≤ n && n < 0x020 then
    some (BitVec.ofNat 64 (if s.tokenMode b u then s.tokens b u (n - 0x10) else s.counter b u (n - 0x10)))
  else if n = 0x020 then some (if s.tokenMode b u then 0 else BitVec.ofNat 64 f.flags.toNat)
  else if 0x030 ≤ n && n < 0x038 then some (smGet (fun _ => 0) f.scr (n - 0x30))
  else if u = 6 && n = 0x040 then some (BitVec.ofNat 64 (s.rfld b 0x90 Off.mltLsel 0 13))
  else if u = 6 && n = 0x041 then some (BitVec.ofNat 64 (coreStrand c))
  else if u = 6 && n = 0x042 then some (BitVec.ofNat 64 (s.reg b 0x98 Off.spcTstat).toNat)
  else none

/-- The action of CSR on an RW register: write, set or clear the bits of gA (R72). -/
def csrNew (act : Nat) (old a : DWord) : DWord :=
  match act with
  | 1 => a
  | 2 => old ||| a
  | 3 => old &&& ~~~ a
  | _ => old

/-- The CSR word writes LSEL on a Molt strand, which is the row LSEL_WRITE (R314, R316). -/
def isLselWrite (c : CoreId) (w : Word) : Bool :=
  !isLong w && sfOp w == 0x0D && coreMolt c && sfImm15 w % 4096 == 0x040 && decide (1 ≤ sfImm15 w / 4096) && decide (sfImm15 w / 4096 ≤ 3)

/-- CSR (R69, R72, R84): an unknown number, or a write to an RO register, raises 0x020A. DEDUCED: log entry 116. -/
def execCsr (c : CoreId) (s : State) : Host.Outcome State Fault Refusal :=
  .next (s.issue c (fun w => !isLong w && sfOp w == 0x0D && !isLselWrite c w) (fun w =>
    let n := sfImm15 w % 4096
    let act := sfImm15 w / 4096
    let old := s.csrValue c n
    let rw := decide (0x030 ≤ n) && decide (n < 0x038)
    let scr := csrNew act (old.getD 0) (s.readG c (sfA w))
    let s1 := if rw && act != 0 then
        s.updFace (coreBench c) (coreUnit c) (fun f => { f with scr := smSet (fun _ => 0) f.scr (n - 0x30) scr }) else s
    s.sequential c [(decide (3 < act), 0x0202, 0), (old.isNone || (act != 0 && !rw), 0x020A, 0)]
      (s1.writeG c (sfD w) (old.getD 0))))

/-- A SYNC word with subop `d` (R72). -/
def isSync (d : Nat) (w : Word) : Bool := !isLong w && sfOp w == 0x0E && sfD w == d

/-- SYNC is not run in token mode (R106). -/
def State.syncFault (s : State) (c : CoreId) : Bool × Nat × Nat := (s.tokenMode (coreBench c) (coreUnit c), 0x0303, 0)

/-- SYNC FSET (R72, R98); a reserved SYNC subop is taken here and raises 0x0202. -/
def execFset (c : CoreId) (s : State) : Host.Outcome State Fault Refusal :=
  .next (s.issue c (fun w => isSync 0 w || (!isLong w && sfOp w == 0x0E && decide (3 < sfD w))) (fun w =>
    s.sequential c [(decide (3 < sfD w), 0x0202, 0), s.syncFault c]
      (s.setFlag (coreBench c) (coreUnit c) (sfImm15 w % 32) true)))

/-- SYNC FCLR (R72, R98). -/
def execFclr (c : CoreId) (s : State) : Host.Outcome State Fault Refusal :=
  .next (s.issue c (isSync 1) (fun w =>
    s.sequential c [s.syncFault c] (s.setFlag (coreBench c) (coreUnit c) (sfImm15 w % 32) false)))

/-- SYNC CADD (R72, R98): the signed value IMM15[14:4]. DEDUCED: log entry 32. -/
def execCadd (c : CoreId) (s : State) : Host.Outcome State Fault Refusal :=
  .next (s.issue c (isSync 2) (fun w =>
    s.sequential c [s.syncFault c] (s.addCounter (coreBench c) (coreUnit c) (sfImm15 w % 16) (sext 11 (sfImm15 w / 16)))))

/-- SYNC CSET (R72, R98): gA[31:0]. -/
def execCset (c : CoreId) (s : State) : Host.Outcome State Fault Refusal :=
  .next (s.issue c (isSync 3) (fun w =>
    s.sequential c [s.syncFault c]
      (s.setCounter (coreBench c) (coreUnit c) (sfImm15 w % 16) ((s.readG c (sfA w)).toNat % 2 ^ 32))))

/-- The lowest set bit of a predicate, 256 when none is set (R72). -/
def firstSet (p : BitVec 256) : Nat := (firstBelow 256 (fun i => p.getLsbD i)).getD 256

/-- A predicate with the lowest `n` bits set. -/
def lowPred (n : Nat) : BitVec 256 := BitVec.ofNat 256 (2 ^ (min n 256) - 1)

/-- PRED (R72, R73): on a Face a vector instruction (R150), which takes 0x0513 while the VE is disabled and waits under its
quiesce (R160). -/
def execPred (c : CoreId) (s : State) : Host.Outcome State Fault Refusal :=
  .next (s.issue c (fun w => !isLong w && sfOp w == 0x1A) (fun w =>
    let fn := sfFn w
    let k := s.core (coreKey c)
    let a := k.p (sfA w)
    let b := k.p (sfB w)
    let setD := fun (v : BitVec 256) => s.updCore (coreKey c) (fun k => k.setP (sfD w) v)
    let eff := match fn with
      | 0 => setD (a &&& b)
      | 1 => setD (a ||| b)
      | 2 => setD (a ^^^ b)
      | 3 => setD (a &&& ~~~ b)
      | 4 => setD (~~~ a)
      | 5 => s.writeG c (sfD w) (BitVec.ofNat 64 (popCount 256 a.toNat))
      | 6 => s.writeG c (sfD w) (BitVec.ofNat 64 (firstSet a))
      | _ => setD (lowPred (k.g (sfA w)).toNat)
    let face := coreUnit c != 6
    let vec := 0x48 + coreUnit c
    let faults := [(decide (7 < fn) || sfPr w != 0, 0x0202, 0),
      (decide (7 < sfB w) || (decide (7 < sfA w) && fn != 7) || (decide (7 < sfD w) && fn != 5 && fn != 6), 0x020B, 0),
      (face && !s.en (coreBench c) vec, 0x0513, 0)]
    if face && s.qsc (coreBench c) vec && (s.core (coreKey c)).pc + 4 < 0x20000 && !faults.any (·.1) then s else s.sequential c faults eff))

end Sys2Proof.Machine
end

