-- ==== Sys2Proof/Machine/Vector.lean ====
section
/-!
DEFINITION. What the vector instructions compute (R68, R72 to R74, R152 to R156, R448), as functions of their operand words,
their governing predicate and the rounding register; windows, rings, checks and the program counter are in Ve.lean.
-/

namespace Sys2Proof.Machine

/-- The result of a vector instruction: the words of vD that are written (`none` keeps the old word), the event flags, and a
general register or predicates written. -/
structure VRes where
  words : List (Option Word)
  flags : AFlags
  g : Option DWord
  preds : List (Nat × BitVec 256)
  deriving DecidableEq, Repr

/-- A result of words and flags, word by word under a predicate: words whose bit is 0 are not computed (R68, R144). -/
def lanes (pr : BitVec 256) (f : Nat → Word × AFlags) : VRes :=
  let r := (List.range 256).map (fun j => if pr.getLsbD j then some (f j) else none)
  ⟨r.map (·.map (·.1)), r.foldl (fun a x => match x with | some y => a.or y.2 | none => a) .none, none, []⟩

/-- Word `j` of a register. -/
def wd (v : List Word) (j : Nat) : Word := v.getD j 0

/-- MIN of two exact values: NaN if either is (R48); of two zeros of unlike sign, the free choice. DEDUCED: log entry 18. -/
def numMin (a b : Num) : Num :=
  if a = .nan || b = .nan then .nan
  else if Num.lt a b then a else if Num.lt b a then b else if Config.zeroPick then a else b

/-- MAX of two exact values, as `numMin`. DEDUCED: log entry 18. -/
def numMax (a b : Num) : Num :=
  if a = .nan || b = .nan then .nan
  else if Num.lt a b then b else if Num.lt b a then a else if Config.zeroPick then a else b

/-- The exact result of a lane function: 0 ADD, 1 SUB, 2 MUL, 3 FMA (d + a × b), 4 MIN, 5 MAX, 6 ABS, 7 NEG (R72). -/
def laneNum (fn : Nat) (d a b : Num) : Num :=
  match fn with
  | 0 => Num.add a b
  | 1 => Num.add a (Num.neg b)
  | 2 => Num.mul a b
  | 3 => Num.add (Num.mul a b) d
  | 4 => numMin a b
  | 5 => numMax a b
  | 6 => Num.abs a
  | _ => Num.neg a

/-- The operands that a lane function reads. -/
def laneOps (fn : Nat) (d a b : Num) : List Num := if fn = 3 then [d, a, b] else if fn = 6 ∨ fn = 7 then [a] else [a, b]

/-- One FP32 lane (R72): FN 0x00 to 0x0B. -/
def f32Lane (fn : Nat) (dw aw bw : Word) : Word × AFlags :=
  let d := of32 dw
  let a := of32 aw
  let b := of32 bw
  let basic := fun k => let r := to32 (laneNum k d a b); (r.1, opFlags (laneOps k d a b) r.2)
  match fn with
  | 0 => basic 0
  | 1 => basic 1
  | 2 => basic 2
  | 3 => basic 3
  | 4 => let r := to32 (Num.div a b); (r.1, opFlags [a, b] r.2)
  | 5 => let r := to32 (Num.sqrt a); (r.1, opFlags [a] r.2)
  | 6 => basic 4
  | 7 => basic 5
  | 8 => basic 6
  | 9 => basic 7
  | 10 => rcp32 aw
  | _ => rsq32 aw

/-- VF32 (R72). -/
def vf32Res (fn : Nat) (pr : BitVec 256) (vd va vb : List Word) : VRes := lanes pr (fun j => f32Lane fn (wd vd j) (wd va j) (wd vb j))

/-- One 16-bit lane: the exact result rounded once under RND and SAT (R51, R56, R57). -/
def f16Lane (l : FLayout) (fn : Nat) (mode : Rnd) (sat : Bool) (r d a b : Nat) : Nat × AFlags :=
  let x := decodeFloat l d
  let y := decodeFloat l a
  let z := decodeFloat l b
  let t := toFloat l true mode sat r (laneNum fn x y z)
  (t.1, opFlags (laneOps fn x y z) t.2)

/-- VBF16 and VFP16 (R72): two elements a word. -/
def v16Res (l : FLayout) (fn : Nat) (mode : Rnd) (sat : Bool) (lf : BitVec 64) (pr : BitVec 256) (vd va vb : List Word) : VRes :=
  lanes pr (fun j =>
    let d := halves (wd vd j)
    let a := halves (wd va j)
    let b := halves (wd vb j)
    let lo := f16Lane l fn mode sat (randomOf lf (2 * j)) d.1 a.1 b.1
    let hi := f16Lane l fn mode sat (randomOf lf (2 * j + 1)) d.2 a.2 b.2
    (ofHalves lo.1 hi.1, lo.2.or hi.2))

/-- The INT32 lane functions (R72); shift amounts are bits 4:0. -/
def i32Lane (fn : Nat) (a b : Word) : Word :=
  match fn with
  | 0 => a + b
  | 1 => a - b
  | 2 => a * b
  | 3 => a &&& b
  | 4 => a ||| b
  | 5 => a ^^^ b
  | 6 => a <<< (b.toNat % 32)
  | 7 => a >>> (b.toNat % 32)
  | 8 => a.sshiftRight (b.toNat % 32)
  | 9 => if a.slt b then a else b
  | 10 => if a.slt b then b else a
  | 11 => if a.ult b then a else b
  | _ => if a.ult b then b else a

/-- VI32 (R72). -/
def vi32Res (fn : Nat) (pr : BitVec 256) (va vb : List Word) : VRes := lanes pr (fun j => (i32Lane fn (wd va j) (wd vb j), .none))

/-- A comparison on exact values (R72): EQ, NE, LT, LE, GT, GE, UNORD. -/
def numCmp (k : Nat) (a b : Num) : Bool :=
  let un := a == .nan || b == .nan
  match k with
  | 0 => Num.eqv a b
  | 1 => un || !Num.eqv a b
  | 2 => Num.lt a b
  | 3 => !un && !Num.lt b a
  | 4 => Num.lt b a
  | 5 => !un && !Num.lt a b
  | _ => un

/-- A comparison on INT32; UNORD is never true there. -/
def intCmp (k : Nat) (a b : Word) : Bool :=
  match k with
  | 0 => a == b
  | 1 => a != b
  | 2 => a.slt b
  | 3 => !b.slt a
  | 4 => b.slt a
  | 5 => !a.slt b
  | _ => false

/-- A predicate from bits, old bits kept where the governing predicate is 0 (R68). -/
def predOf (pr old : BitVec 256) (f : Nat → Bool) : BitVec 256 :=
  BitVec.ofNat 256 (maskOf ((List.range 256).filter (fun j => if pr.getLsbD j then f j else old.getLsbD j)))

/-- The flags of operands read by a comparison: NF where a selected one is not finite (R61). -/
def readFlags (pr : BitVec 256) (f : Nat → List Num) : AFlags :=
  ⟨(List.range 256).any (fun j => pr.getLsbD j && (f j).any Num.nonFinite), false, false⟩

/-- VCMP (R72, R73): lanes 0 FP32, 1 BF16, 2 FP16, 3 INT32; 16-bit lanes write the predicate pair D, D + 1. -/
def vcmpRes (lane k d : Nat) (pr oldLo oldHi : BitVec 256) (va vb : List Word) : VRes :=
  let none256 := List.replicate 256 none
  if lane = 0 then
    ⟨none256, readFlags pr (fun j => [of32 (wd va j), of32 (wd vb j)]), none,
      [(d, predOf pr oldLo (fun j => numCmp k (of32 (wd va j)) (of32 (wd vb j))))]⟩
  else if lane = 3 then ⟨none256, .none, none, [(d, predOf pr oldLo (fun j => intCmp k (wd va j) (wd vb j)))]⟩
  else
    let l := if lane = 1 then lay16b else lay16h
    let lo := fun (v : List Word) j => decodeFloat l (halves (wd v j)).1
    let hi := fun (v : List Word) j => decodeFloat l (halves (wd v j)).2
    ⟨none256, readFlags pr (fun j => [lo va j, lo vb j, hi va j, hi vb j]), none,
      [(d, predOf pr oldLo (fun j => numCmp k (lo va j) (lo vb j))), (d + 1, predOf pr oldHi (fun j => numCmp k (hi va j) (hi vb j)))]⟩

/-- The bytes of a register, word by word. -/
def wordBytes (ws : List Word) : List Byte := ws.flatMap (fun w => leBytes 4 w.toNat)

/-- Bytes grouped into words, the last padded with zeros. -/
def bytesWords (bs : List Byte) : List Word := (chunksOf 4 (bs.length + 1) bs).map (fun c => w32 (leNat c))

/-- The number of elements a VCVT converts (R448). -/
def vcvtCount (src dst : Fmt) : Nat := if src.bits = 32 || dst.bits = 32 then 256 else 512

/-- The source elements of a VCVT (R448). -/
def vcvtSource (src : Fmt) (n : Nat) (va : List Word) : List Num :=
  let bs := wordBytes va
  if src.isMx then
    let sb := 4 * ceilDiv (n * src.bits) 32
    (List.range n).map (fun i => decodeMx src ((bs.getD (sb + i / 32) 0).toNat) (packedElem bs src.bits i))
  else (List.range n).map (fun i => decodeElem src (packedElem bs src.bits i))

/-- The target of a VCVT as packed bytes with the word each flag belongs to (R58, R74, R448). DEDUCED: log entries 20, 115. -/
def vcvtTarget (dst : Fmt) (mode : Rnd) (sat : Bool) (lf : BitVec 64) (vs : List Num) : List Byte × List (Nat × AFlags) :=
  let rs := (List.range vs.length).map (randomOf lf)
  if dst.isMx then
    let blocks := ((chunksOf 32 17 vs).zip (chunksOf 32 17 rs)).map (fun x => toMxBlock dst mode x.2 x.1)
    let elems := packElems dst.bits (blocks.flatMap (fun x => x.2.1))
    let body := elems ++ List.replicate ((4 - elems.length % 4) % 4) 0
    (body ++ blocks.map (fun x => BitVec.ofNat 8 x.1), (List.range blocks.length).map (fun k => (k * 32 * dst.bits / 32, ((blocks.map (fun x => x.2.2)).getD k .none))))
  else
    let rs := (vs.zip rs).map (fun x => convertElem dst mode (sat && dst ≠ .fp32) x.2 x.1)
    (packElems dst.bits (rs.map (·.1)), (List.range rs.length).map (fun i => (i * dst.bits / 32, ((rs.map (·.2)).getD i .none))))

/-- VCVT (R74, R448). DEDUCED: log entry 20. -/
def vcvtRes (src dst : Fmt) (mode : Rnd) (sat : Bool) (lf : BitVec 64) (pr : BitVec 256) (va : List Word) : VRes :=
  let t := vcvtTarget dst mode sat lf (vcvtSource src (vcvtCount src dst) va)
  let ws := bytesWords t.1
  ⟨(List.range ws.length).map (fun j => if pr.getLsbD j then ws[j]? else none),
    t.2.foldl (fun a x => if pr.getLsbD x.1 then a.or x.2 else a) .none, none, []⟩

/-- The bytes that a VLD reads and its element size, by FMT and W; `none` for an undefined combination (R74). -/
def vldShape (f : Fmt) (wide : Bool) : Option (Nat × Nat) :=
  match f with
  | .fp32 | .int32 => if wide then none else some (1024, 4)
  | .bf16 | .fp16 | .splHi => if wide then some (1024, 2) else some (512, 2)
  | .e4m3 | .e5m2 => if wide then some (512, 1) else some (256, 1)
  | .int8 => if wide then none else some (256, 1)
  | .mxE4m3 | .mxE5m2 | .mxE2m3 | .mxE3m2 | .mxE2m1 | .e8m0 => if wide then none else some (1024, 4)
  | .splLo | .reserved => none

/-- VLD of the bytes read (R74). -/
def vldRes (f : Fmt) (wide : Bool) (bs : List Byte) (pr : BitVec 256) : VRes :=
  let word := fun j => w32 (leNat ((bs.drop (4 * j)).take 4))
  let widen := fun (v : Num) => let r := to32 v; (r.1, opFlags [v] r.2)
  lanes pr (fun j =>
    match f with
    | .bf16 | .fp16 | .splHi => if wide then (word j, .none) else widen (decodeElem f (packedElem bs 16 j))
    | .e4m3 | .e5m2 =>
      if wide then
        let a := toFloat lay16b true .nearest false 0 (decodeElem f (packedElem bs 8 (2 * j)))
        let b := toFloat lay16b true .nearest false 0 (decodeElem f (packedElem bs 8 (2 * j + 1)))
        (ofHalves a.1 b.1, a.2.or b.2)
      else widen (decodeElem f (packedElem bs 8 j))
    | .int8 => (BitVec.ofInt 32 (sext 8 (packedElem bs 8 j)), .none)
    | _ => (word j, .none))

/-- The words of a register that a predicate selects, in ascending order. -/
def selected (pr : BitVec 256) (va : List Word) : List Word := ((List.range 256).filter (fun j => pr.getLsbD j)).map (wd va)

/-- VCOMPRESS (R155). -/
def vcompressRes (pr : BitVec 256) (va : List Word) : VRes := ⟨(selected pr va).map some, .none, none, []⟩

/-- VEXPAND (R155): the ith selected word of vD takes word i of vA. -/
def vexpandRes (pr : BitVec 256) (va : List Word) : VRes :=
  ⟨(List.range 256).map (fun j => if pr.getLsbD j then some (wd va (popCount j pr.toNat)) else none), .none, none, []⟩

/-- One level of the pairwise tree of VSUMMARY SUM (R156). -/
def pairSums : List Word → List Word
  | a :: b :: rest => (to32 (Num.add (of32 a) (of32 b))).1 :: pairSums rest
  | l => l

/-- `n` levels of the tree. -/
def treeSum : Nat → List Word → Word
  | 0, l => l.headD 0
  | n + 1, l => treeSum n (pairSums l)

/-- The signed value of an INT32 word. -/
def intOf (w : Word) : Int := w.toInt

/-- VSUMMARY (R156); an INT32 word is neither NaN nor infinite. -/
def vsummaryRes (kind : Nat) (pr : BitVec 256) (va : List Word) : VRes :=
  let sel := selected pr va
  let nf : AFlags := ⟨!(kind == 4 || kind == 5 || kind == 6) && sel.any (fun w => (of32 w).nonFinite), false, false⟩
  let g : DWord := match kind with
    | 0 => if sel.any (fun w => (of32 w).nonFinite) then 1 else 0
    | 1 => if sel.any (fun w => of32 w == .nan) then BitVec.setWidth 64 nan32
      else BitVec.setWidth 64 (sel.foldl (fun (m : Word) w => if Num.lt (of32 m) (Num.abs (of32 w)) then w &&& 0x7FFFFFFF else m) 0)
    | 2 => BitVec.setWidth 64 (treeSum 8 ((List.range 256).map (fun j => if pr.getLsbD j then wd va j else 0)))
    | 3 => BitVec.ofNat 64 (sel.countP (fun w => (w &&& 0x7FFFFFFF) != 0))
    | 4 => BitVec.ofInt 64 (sel.foldl (fun m w => max m (intOf w)) (-2147483648))
    | 5 => BitVec.ofInt 64 (sel.foldl (fun m w => min m (intOf w)) 2147483647)
    | 6 => BitVec.ofInt 64 (sel.foldl (fun m w => m + intOf w) 0)
    | _ => BitVec.ofNat 64 ((List.range 256).foldl (fun (best : Nat) j =>
        if pr.getLsbD j && of32 (wd va j) != .nan && (best == 256 || Num.lt (of32 (wd va best)) (of32 (wd va j))) then j else best) 256)
  ⟨List.replicate 256 none, nf, some g, []⟩

/-- A function table's evaluation of one word (R153): `hdr` reads a header word by its offset, `ent` an entry. -/
def tableEval (hdr ent : Nat → Word) (xw : Word) : Word × AFlags :=
  let f2 := fun (op : Num → Num → Num) (a b : Word) => let r := to32 (op (of32 a) (of32 b)); (r.1, opFlags [of32 a, of32 b] r.2)
  let sub := fun (a b : Num) => Num.add a (Num.neg b)
  let tail := fun (a b : Word) => let m := f2 Num.mul a xw; let y := f2 Num.add m.1 b; (y.1, m.2.or y.2)
  match of32 xw with
  | .nan => (nan32, ⟨true, false, false⟩)
  | .inf neg =>
    let a := hdr (if neg then 0x08 else 0x10)
    let b := hdr (if neg then 0x0C else 0x14)
    match of32 a with
    | .fin s m _ => if m = 0 then (b, ⟨true, false, false⟩) else (w32 (encodeInf lay32 (s != neg)), ⟨true, false, false⟩)
    | .inf s => (w32 (encodeInf lay32 (s != neg)), ⟨true, false, false⟩)
    | .nan => (nan32, ⟨true, false, false⟩)
  | .fin _ _ _ =>
    let t := f2 sub xw (hdr 0x00)
    let u := f2 Num.mul t.1 (hdr 0x04)
    let fl := t.2.or u.2
    let un := of32 u.1
    if Num.lt un Num.zero then let y := tail (hdr 0x08) (hdr 0x0C); (y.1, fl.or y.2)
    else if !Num.lt un (.fin false 4095 0) && un != .nan then let y := tail (hdr 0x10) (hdr 0x14); (y.1, fl.or y.2)
    else match un with
      | .fin _ m e =>
        let i := if 0 ≤ e then m * 2 ^ e.toNat else m / 2 ^ (-e).toNat
        let f := f2 sub u.1 (to32 (numOfInt i)).1
        let d := f2 sub (ent (i + 1)) (ent i)
        let p := f2 Num.mul f.1 d.1
        let y := f2 Num.add (ent i) p.1
        (y.1, fl.or (f.2.or (d.2.or (p.2.or y.2))))
      | _ => (nan32, ⟨true, false, false⟩)

end Sys2Proof.Machine
end

