-- ==== Sys2Proof/Machine/Windows.lean ====
section
/-!
DEFINITION. The vector registers that act as windows: the tile queue and the rings of a Face's VE (R143 to R149), and the
streams of a Molt pass (R315 to R319).
-/

namespace Sys2Proof.Machine

/-! ### The Face's windows -/

/-- The page of a Face's VE. -/
def vecPage (u : Nat) : Nat := 0x48 + u

/-- VEC_CFG.TQW: v30 and v31 act as windows; never on the Molt. -/
def State.tqw (s : State) (b u : Nat) : Bool := u != 6 && wbit (s.reg b (vecPage u) Off.vecCfg) 0

/-- A tile's word `j` of chunk `k` is live (R143). -/
def Tile.liveWord (t : Tile) (k j : Nat) : Bool := decide ((if t.ord = 0 then 16 * k + j / 16 else j % 128) < t.live)

/-- The words of chunk `k` of a tile; dead words read +0 (R143). -/
def Tile.chunk (t : Tile) (k : Nat) : List Word :=
  (List.range 256).map (fun j => if t.liveWord k j then t.vals.getD (256 * k + j) 0 else 0)

/-- Elements stored at consecutive positions of a ring: place and bytes, for the words that are written (R147). -/
def ringStores (b u base fmtBits first : Nat) (vals : List (Option Nat)) : List (Nat × List Byte) :=
  (List.range vals.length).filterMap (fun j =>
    match vals.getD j none with
    | some v => some (fsLoc b u (base + (first + j) * fmtBits / 8), leBytes (fmtBits / 8) v)
    | none => none)

/-- The base and slot count of a ring register (R160). -/
def ringOf (w : Word) : Nat × Nat := (wfld w 0 23, wfld w 24 8)

/-- The head tile of the tile queue with the chunk that the next pop takes, where one is unread (R144). -/
def State.nextChunk (s : State) (b u : Nat) : Option (Tile × Nat) := (s.face b u).tileQ.head?.map (fun t => (t, (s.face b u).popped))

/-- The stores of a pop to the save ring (R147, R148) with the flags of their conversion. DEDUCED: log entry 24. -/
def State.saveStores (s : State) (b u : Nat) (t : Tile) (k : Nat) : List (Nat × List Byte) × AFlags :=
  let r := ringOf (s.reg b (vecPage u) Off.vecSring)
  if r.2 = 0 then ([], .none)
  else
    let f := Fmt.ofCode (s.rfld b (vecPage u) Off.vecSfmt 0 4)
    let vs := (List.range 256).map (fun j =>
      if t.liveWord k j then some (let v := of32 (t.vals.getD (256 * k + j) 0); convertElem f .nearest false 0 v) else none)
    (ringStores b u (r.1 + ((s.face b u).tilesOut % r.2) * (256 * f.bits)) f.bits (256 * k) (vs.map (·.map (·.1))),
      vs.foldl (fun a v => match v with | some x => a.or x.2 | none => a) .none)

/-- A pop (R144, R147): LPRED is loaded, the save ring written, and the entry released by its eighth pop. -/
def State.popChunk (s : State) (b u : Nat) (t : Tile) (k : Nat) : State :=
  let lp := s.rfld b (vecPage u) Off.vecCfg 1 3
  let sv := s.saveStores b u t k
  let slots := (ringOf (s.reg b (vecPage u) Off.vecSring)).2
  let live := BitVec.ofNat 256 (maskOf ((List.range 256).filter (t.liveWord k)))
  let s := if lp = 0 then s else s.updCore (b * 16 + u) (fun c => c.setP lp live)
  let s := (s.storesAs b u sv.1).addAFlags b u sv.2
  let s := s.updFace b u (fun f => if k < 7 then { f with popped := k + 1 }
    else { f with popped := 0, tileQ := f.tileQ.drop 1, tilesOut := f.tilesOut + 1 })
  if slots = 0 then s
  else s.updFace b u (fun f => { f with sPos := f.sPos + 1, sFull := if k = 7 then f.sFull + 1 else f.sFull })

/-- The output format settings of VEC_OFMT: format, rounding, saturation (R148). -/
def State.outFmt (s : State) (b u : Nat) : Fmt × Rnd × Bool :=
  let w := s.reg b (vecPage u) Off.vecOfmt
  (Fmt.ofCode (wfld w 0 4), Rnd.ofCode (wfld w 4 2), wbit w 6)

/-- The stores of a write to v30 (R147, R148), with the flags of the conversion; `lf` is the rounding register after the write's
own advance. DEDUCED: log entry 24. -/
def State.outStores (s : State) (b u : Nat) (lf : BitVec 64) (ws : List (Option Word)) : List (Nat × List Byte) × AFlags :=
  let r := ringOf (s.reg b (vecPage u) Off.vecOring)
  let o := s.outFmt b u
  let i := (s.face b u).oPos
  let vs := (List.range 256).map (fun j => (ws.getD j none).map (fun w =>
    let v := if o.1 = .int8 ∨ o.1 = .int32 then numOfInt w.toInt else of32 w
    convertElem o.1 o.2.1 (o.2.2 && o.1 ≠ .fp32) (randomOf lf j) v))
  (ringStores b u (r.1 + (i / 8 % r.2) * (256 * o.1.bits)) o.1.bits (256 * (i % 8)) (vs.map (·.map (·.1))),
    vs.foldl (fun a v => match v with | some x => a.or x.2 | none => a) .none)

/-- A write to v30 counted; the eighth write of a slot fills it (R147, R149). -/
def State.outWritten (s : State) (b u : Nat) : State :=
  s.updFace b u (fun f => { f with oPos := f.oPos + 1, oFull := if f.oPos % 8 = 7 then f.oFull + 1 else f.oFull })

/-! ### The Molt's windows (R315 to R319) -/

/-- The read windows. DEDUCED: log entry 30. -/
def readWindow (n : Nat) : Bool := n == 31 || n == 29 || n == 28 || n == 27
/-- The write windows. DEDUCED: log entry 30. -/
def writeWindow (n : Nat) : Bool := n == 30 || n == 26 || n == 25

/-- MLT_LSEL: a pass is open. DEDUCED: log entry 31. -/
def State.passOpen (s : State) (b : Nat) : Bool := wbit (s.reg b 0x90 Off.mltLsel) 31
/-- MLT_LSEL.PASS. -/
def State.pass2 (s : State) (b : Nat) : Bool := wbit (s.reg b 0x90 Off.mltLsel) 12

/-- A field of the open layer's entry (R315). -/
def layerField (e : List Byte) (off n : Nat) : Nat := leNat ((e.drop off).take n)
/-- CNT of the layer. -/
def layerCnt (e : List Byte) : Nat := layerField e 4 4
/-- A bit of FLG. -/
def layerFlag (e : List Byte) (i : Nat) : Bool := nbit (layerField e 9 1) i
/-- The layer's stash is BF16. -/
def layerBf16 (e : List Byte) : Bool := layerField e 8 1 == 1

/-- The state that a window streams is present (R317). -/
def windowPresent (e : List Byte) (n : Nat) : Bool :=
  if n = 28 ∨ n = 26 then layerFlag e 1 else if n = 27 ∨ n = 25 then layerFlag e 2 else true

/-- The window faults of a Molt instruction (R317): wrong direction, then no pass, wrong pass or absent state, then a write ahead
of its read; while the MLT_ page is disabled no window acts (R329). DEDUCED: log entry 31. -/
def State.moltWindowFaults (s : State) (b : Nat) (c : Core) (srcs : List Nat) (dst : Option Nat) : List (Bool × Nat × Nat) :=
  let named := srcs ++ (match dst with | some d => [d] | none => [])
  let wins := named.filter (fun n => readWindow n || writeWindow n)
  let e := (s.bench b).molt.entry
  let count := fun (n : Nat) => smGet (fun _ => 0) c.access n + (if srcs.contains n then 1 else 0)
  [(srcs.any writeWindow || (match dst with | some d => readWindow d | none => false), 0x0C03, 0),
    (!wins.isEmpty && (!s.passOpen b || !s.en b 0x90 || wins.any (fun n => !windowPresent e n || (writeWindow n && !s.pass2 b))), 0x0C04, 0),
    ((match dst with
      | some 30 => decide (count 29 ≤ count 30)
      | some 26 => decide (count 28 ≤ count 26)
      | some 25 => decide (count 27 ≤ count 25)
      | _ => false), 0x0C05, 0)]

/-- The first element of access `n` of a strand (R317). -/
def State.windowFirst (s : State) (b k n : Nat) : Nat := 256 * (k + n * s.strands b 6)

/-- What a failed access at a virtual address of the Molt leaves: its translation or protection fault is recorded (R218, R315), under
the Molt's agent number 4 and its FACEID 6 (R223). DEDUCED: log entry 110. -/
def Ans.moltFault (r : Ans) (b : Nat) : Ans :=
  if r.code = 0 ∨ waitCode ≤ r.code then r else { r with st := r.st.xltFault b 38 r.code (leNat r.data) }

/-- Whether element `i` of the layer is frozen: the mask is read as the Molt's agent. -/
def State.frozenBits (s : State) (b first cnt : Nat) : Ans :=
  let e := (s.bench b).molt.entry
  if layerFlag e 0 then (s.vread b 7 6 (layerField e 0x38 8 + first / 8) ((cnt + 7) / 8)).moltFault b else ⟨0, List.replicate 32 0, s⟩

/-- A packed stream of the layer read as raw elements of `n` bytes. -/
def State.layerRead (s : State) (b off n first cnt : Nat) : Ans :=
  (s.vread b 7 6 (layerField (s.bench b).molt.entry off 8 + n * first) (n * cnt)).moltFault b

/-- Element `i` of raw bytes. -/
def rawElem (bs : List Byte) (n i : Nat) : Nat := leNat ((bs.drop (n * i)).take n)

/-- The values of one access to a read window: 256 words, and for v31 the live words (R317). -/
structure WinRead where
  code : Nat
  waits : Bool
  vals : List Word
  live : BitVec 256
  st : State

/-- A read window's access number `n` by strand `k`. DEDUCED: log entry 30. -/
def State.windowRead (s : State) (b k n reg : Nat) : WinRead :=
  let e := (s.bench b).molt.entry
  let first := s.windowFirst b k n
  let cnt := min 256 (layerCnt e - first)
  let z := frozenZero
  let fr := s.frozenBits b first cnt
  if cnt = 0 then ⟨0, false, List.replicate 256 0, 0, s⟩
  else if fr.code ≠ 0 then ⟨fr.code, false, [], 0, fr.st⟩
  else
    let frozen := fun i => bitAt fr.data (first % 8 + i)
    let words := fun (v : Nat → Word) => (List.range 256).map (fun i => if i < cnt then v i else 0)
    let live := BitVec.ofNat 256 (maskOf ((List.range cnt).filter (fun i => !frozen i)))
    if reg = 31 then
      if !s.pass2 b && !layerFlag e 3 then
        let g := fun i => smGet (fun _ => none) (s.bench b).molt.grad (first + i)
        if (List.range cnt).any (fun i => (g i).isNone) then ⟨0, true, [], 0, s⟩
        else ⟨0, false, words (fun i => if frozen i then z else (g i).getD 0), live, fr.st⟩
      else
        let sz := if layerBf16 e then 2 else 4
        let r := fr.st.layerRead b 0x30 sz first cnt
        if r.code ≠ 0 then ⟨r.code, false, [], 0, r.st⟩
        else ⟨0, false, words (fun i => if frozen i then z else
          if layerBf16 e then w32 (rawElem r.data 2 i * 65536) else w32 (rawElem r.data 4 i)), live, r.st⟩
    else if reg = 29 then
      let h := fr.st.layerRead b 0x10 2 first cnt
      if h.code ≠ 0 then ⟨h.code, false, [], 0, h.st⟩
      else
        let l := h.st.layerRead b 0x18 2 first cnt
        if l.code ≠ 0 then ⟨l.code, false, [], 0, l.st⟩
        else ⟨0, false, words (fun i => w32 (rawElem h.data 2 i * 65536 + rawElem l.data 2 i)), live, l.st⟩
    else
      let r := fr.st.layerRead b (if reg = 28 then 0x20 else 0x28) 4 first cnt
      if r.code ≠ 0 then ⟨r.code, false, [], 0, r.st⟩
      else ⟨0, false, words (fun i => w32 (rawElem r.data 4 i)), live, r.st⟩
where
  /-- +0. -/
  frozenZero : Word := 0

/-- One element written at a virtual address of the layer; the first fault stops the writes. -/
def State.layerWrite (s : State) (b off n i v : Nat) : Ans :=
  (s.vwrite b 7 6 (layerField (s.bench b).molt.entry off 8 + n * i) (leBytes n v)).moltFault b

/-- Writes in order until one faults. -/
def writeEach (f : State → Nat × Nat → Ans) : State → List (Nat × Nat) → Ans
  | s, [] => ⟨0, [], s⟩
  | s, x :: xs => let r := f s x; if r.code ≠ 0 then r else writeEach f r.st xs

/-- A pass-1 access to v31 without GMEM writes its values to the stash, frozen words as +0 (R317), and a BF16
conversion sets the Molt's flags (R319). -/
def State.stashWrite (s : State) (b k n : Nat) (vals : List Word) : Ans :=
  let e := (s.bench b).molt.entry
  let first := s.windowFirst b k n
  let cnt := min 256 (layerCnt e - first)
  let conv := fun (w : Word) => if layerBf16 e then convertElem .bf16 .nearest false 0 (of32 w) else (w.toNat, .none)
  let cs := (List.range cnt).map (fun i => (first + i, conv (vals.getD i 0)))
  writeEach (fun s x => s.layerWrite b 0x30 (if layerBf16 e then 2 else 4) x.1 x.2)
    (s.addAFlags b 6 (cs.foldl (fun a x => a.or x.2.2) .none)) (cs.map (fun x => (x.1, x.2.1)))

/-- The elements that a write window's access stores (R317): below CNT, not frozen, in words that PR selects.
DEDUCED: log entry 30. -/
def State.windowWrite (s : State) (b k n reg : Nat) (ws : List (Option Word)) : Ans :=
  let e := (s.bench b).molt.entry
  let first := s.windowFirst b k n
  let cnt := min 256 (layerCnt e - first)
  let fr := s.frozenBits b first cnt
  if cnt = 0 then ⟨0, [], s⟩
  else if fr.code ≠ 0 then fr
  else
    let put := (List.range cnt).filterMap (fun i =>
      if bitAt fr.data (first % 8 + i) then none else (ws.getD i none).map (fun w => (first + i, w.toNat)))
    if reg = 30 then
      let split := put.map (fun x => (x.1, if of32 (w32 x.2) == .nan then 0x7FC00000 else x.2))
      let r := writeEach (fun s x => s.layerWrite b 0x10 2 x.1 (x.2 / 65536)) fr.st split
      if r.code ≠ 0 then r else writeEach (fun s x => s.layerWrite b 0x18 2 x.1 (x.2 % 65536)) (r.st.bump b 0x90 Off.mltElem put.length) split
    else writeEach (fun s x => s.layerWrite b (if reg = 26 then 0x20 else 0x28) 4 x.1 x.2) fr.st put

/-- The Molt's state changed. -/
def State.updMolt (s : State) (b : Nat) (f : Molt → Molt) : State := s.updBench b (fun x => { x with molt := f x.molt })

/-- Elements that an access covers. -/
def State.covered (s : State) (b k n : Nat) : Nat := min 256 (layerCnt (s.bench b).molt.entry - s.windowFirst b k n)

/-- An access to a window counted: for the strand, and for the pass (R316, R317). -/
def State.countAccess (s : State) (b key k reg : Nat) : State :=
  let n := smGet (fun _ => 0) (s.core key).access reg
  let m := s.covered b k n
  let s := s.updCore key (fun c => { c with access := smSet (fun _ => 0) c.access reg (n + 1) })
  s.updMolt b (fun x => match reg with
    | 31 => { x with popped := x.popped + m }
    | 30 => { x with wrote30 := x.wrote30 + m }
    | 26 => { x with wrote26 := x.wrote26 + m }
    | 25 => { x with wrote25 := x.wrote25 + m }
    | _ => x)

end Sys2Proof.Machine
end

