-- ==== Sys2Proof/Machine/Ve.lean ====
section
/-!
DEFINITION. The vector short forms of Sett (R72 to R74, R143 to R160, R314, R317, R448): one definition for each row over one
shape, which checks the faults in the order of R84, reads the windows, computes, and writes.
-/

namespace Sys2Proof.Machine

/-- What a vector instruction names and does: faults up to the format codes, vector sources, vector destination, whether it may
write v30, whether it rounds stochastically, its Face-store reads' and stores' faults, and its results from the core (after a
pop's predicate load), the operand reader and the rounding register. -/
structure VSpec where
  pre : List (Bool × Nat × Nat)
  srcs : List Nat
  dst : Option Nat
  mayWrite30 : Bool
  stochastic : Bool
  post : List (Bool × Nat × Nat)
  run : Core → (Nat → List Word) → BitVec 64 → VRes
  stores : Core → (Nat → List Word) → List (Nat × List Byte)

/-- The faults of the Face's VE between the format codes and the addresses (R145, R160, R162). DEDUCED: log entry 23. -/
def State.veFaults (s : State) (b u : Nat) (v : VSpec) : List (Bool × Nat × Nat) :=
  let w := s.tqw b u
  [(w && (v.dst == some 31 || v.srcs.contains 30), 0x0510, 0), (w && v.dst == some 30 && !v.mayWrite30, 0x0511, 0),
    (w && v.dst == some 30 && (ringOf (s.reg b (vecPage u) Off.vecOring)).2 == 0, 0x0512, 0), (!s.en b (vecPage u), 0x0513, 0)]

/-- The results of an instruction put into the core: words of vD, gD and predicates. -/
def Core.result (c : Core) (dst : Option Nat) (gd : Nat) (r : VRes) : Core :=
  let c := match dst with | some d => c.setV d r.words | none => c
  let c := match r.g with | some v => c.setG gd v | none => c
  r.preds.foldl (fun c p => c.setP p.1 p.2) c

/-- A change that would need more held lines than there are does not happen: its agent stalls (R324). -/
def State.orStall (s t : State) (b ag : Nat) : State :=
  if s.taskState b == 1 && s.inTask b ag && !t.specFits b (t.bench b).held then s.noteStall b else t

/-- A vector instruction on a Face: the pop, the operation, the write of v30 to the output ring, and the stores (R144 to R149).
DEDUCED: log entry 21. -/
def State.runFaceVector (s : State) (c : CoreId) (w : Word) (v : VSpec) : State :=
  let b := coreBench c
  let u := coreUnit c
  let k := coreKey c
  let pops := s.tqw b u && v.srcs.contains 31
  match s.nextChunk b u, pops with
  | none, true => s.updFace b u (fun f => { f with waitWindow := 1 })
  | next, _ =>
    let chunk := match next with | some (t, n) => t.chunk n | none => []
    let s1 := if pops then (match next with | some (t, n) => s.popChunk b u t n | none => s) else s
    let s1 := s1.updFace b u (fun f => { f with waitWindow := 0, lfsr := if v.stochastic then lfsrSteps 64 f.lfsr else f.lfsr })
    let core := s1.core k
    let rd := fun n => if pops && n == 31 then chunk else core.v n
    let r := v.run core rd (s1.face b u).lfsr
    let toRing := s.tqw b u && v.dst == some 30
    let s2 := if toRing then
        let st := (s.outFmt b u).2.1 == .stochastic
        let s2 := if st then s1.updFace b u (fun f => { f with lfsr := lfsrSteps 64 f.lfsr }) else s1
        let o := s2.outStores b u (s2.face b u).lfsr r.words
        ((s2.storesAs b u o.1).addAFlags b u o.2).outWritten b u
      else s1
    let s3 := (s2.storesAs b u (v.stores core rd)).addAFlags b u r.flags
    let s4 := (s3.updCore k (fun x => x.result (if toRing then none else v.dst) (sfD w) r)).setPc c (core.pc + 4)
    s.orStall s4 b u

/-- The read windows that an instruction names, in register order, read for one strand: values by register, or a wait, or a fault
(R317 to R319). Each is counted as one access. DEDUCED: log entry 30. -/
def readWindows (b key k : Nat) : State → List Nat → Nat × Bool × List (Nat × List Word) × State
  | s, [] => (0, false, [], s)
  | s, r :: rs =>
    let n := smGet (fun _ => 0) (s.core key).access r
    let x := s.windowRead b k n r
    if x.code ≠ 0 then (x.code, false, [], x.st)
    else if x.waits then (0, true, [], s)
    else
      let s1 := if r = 31 then x.st.updCore key (fun c => c.setP 7 x.live) else x.st
      let y := if r = 31 && !s.pass2 b && !layerFlag (s.bench b).molt.entry 3 then s1.stashWrite b k n x.vals else ⟨0, [], s1⟩
      if y.code ≠ 0 then (y.code, false, [], y.st)
      else
        let t := readWindows b key k (y.st.countAccess b key k r) rs
        (t.1, t.2.1, (r, x.vals) :: t.2.2.1, t.2.2.2)

/-- A vector instruction on a Molt strand: its read windows, the operation, its write window and stores (R313, R317). A fault of a
window's memory access is an imprecise exception of the strand. DEDUCED: log entry 31. -/
def State.runMoltVector (s : State) (c : CoreId) (w : Word) (v : VSpec) : State :=
  let b := coreBench c
  let key := coreKey c
  let k := coreStrand c
  let fault := fun (t : State) (code : Nat) =>
    if waitCode ≤ code then s.noteWait b code else t.exception b 6 k code 0 (t.face b 6).bank (t.core key).pc false true
  let wins := [31, 29, 28, 27].filter v.srcs.contains
  let rw := readWindows b key k s wins
  if rw.2.1 then s.updFace b 6 (fun f => { f with waitWindow := putFld f.waitWindow k 1 1 })
  else if rw.1 ≠ 0 then fault rw.2.2.2 rw.1
  else
    let s1 := rw.2.2.2.updFace b 6 (fun f => { f with waitWindow := putFld f.waitWindow k 1 0 })
    let core := s1.core key
    let rd := fun n => match rw.2.2.1.find? (fun x => x.1 == n) with | some x => x.2 | none => core.v n
    let r := v.run core rd 0
    let toWin := match v.dst with | some d => writeWindow d | none => false
    let d := v.dst.getD 0
    let s2 := (s1.storesAs b 7 (v.stores core rd)).addAFlags b 6 r.flags
    let done := fun (t : State) => (t.updCore key (fun x => x.result (if toWin then none else v.dst) (sfD w) r)).setPc c (core.pc + 4)
    if toWin then
      let x := s2.windowWrite b k (smGet (fun _ => 0) core.access d) d r.words
      if x.code ≠ 0 then fault x.st x.code else s.orStall (done (x.st.countAccess b key k d)) b 7
    else s.orStall (done s2) b 7

/-- A vector instruction (R84, R160): the word at the program counter belongs to the row; the first fault is taken; under quiesce
of the VE it waits. DESIGN CHOICE: log entry 2. -/
def State.vector (s : State) (c : CoreId) (mine : Word → Bool) (spec : Word → VSpec) : State :=
  s.issue c mine (fun w =>
    let b := coreBench c
    let u := coreUnit c
    let v := spec w
    let faults := v.pre ++ (if u = 6 then s.moltWindowFaults b (s.core (coreKey c)) v.srcs v.dst else s.veFaults b u v) ++ v.post
    if 0x20000 ≤ (s.core (coreKey c)).pc + 4 then s.precise c 0x0204 0 false
    else match faults.find? (·.1) with
      | some (_, code, val) => s.precise c code val false
      | none => if u = 6 then s.runMoltVector c w v else if s.qsc b (vecPage u) then s else s.runFaceVector c w v)

/-- No stores. -/
def noStores : Core → (Nat → List Word) → List (Nat × List Byte) := fun _ _ => []

/-- A plain vector result from sources A and B into D. -/
def vspec (w : Word) (pre : List (Bool × Nat × Nat)) (srcs : List Nat) (may30 stoch : Bool)
    (run : BitVec 256 → (Nat → List Word) → BitVec 64 → VRes) : VSpec :=
  { pre := pre, srcs := srcs, dst := some (sfD w), mayWrite30 := may30, stochastic := stoch, post := [],
    run := fun c rd lf => run (c.p (sfPr w)) rd lf, stores := noStores }

/-- A short form with major opcode `op`. -/
def isOp (op : Nat) (w : Word) : Bool := !isLong w && sfOp w == op

/-- VF32 but for the table functions (R72); a reserved FN is taken here. -/
def execVf32 (c : CoreId) (s : State) : Host.Outcome State Fault Refusal :=
  .next (s.vector c (fun w => isOp 0x10 w && sfFn w != 0x20 && sfFn w != 0x21) (fun w =>
    let fn := sfFn w
    let one := fn == 5 || fn == 8 || fn == 9 || fn == 10 || fn == 11
    vspec w [(decide (0x0B < fn), 0x0202, 0)] (sfA w :: ((if one then [] else [sfB w]) ++ (if fn == 3 then [sfD w] else []))) true false
      (fun pr rd _ => vf32Res fn pr (rd (sfD w)) (rd (sfA w)) (rd (sfB w)))))

/-- A word of a Face's table memory (R152). -/
def State.tableWord (s : State) (b u off : Nat) : Word := w32 (leNat (s.bytesAt (loc 6 b u off) 4))

/-- The shape of VTABF and VTABD (R152, R153, R314). -/
def State.vtab (s : State) (c : CoreId) (fn : Nat) (d : Nat) : State :=
  s.vector c (fun w => isOp 0x10 w && sfFn w == fn) (fun w =>
    let t := sfB w % 8
    let hdr := fun off => s.tableWord (coreBench c) (coreUnit c) (128 * t + 0x40 * d + off)
    let ent := fun i => s.tableWord (coreBench c) (coreUnit c) (0x400 + 0x8000 * t + 0x4000 * d + 4 * i)
    vspec w [(coreMolt c, 0x0C01, 0), (decide (8 ≤ sfB w), 0x020B, 0)] [sfA w] true false
      (fun pr rd _ => lanes pr (fun j => tableEval hdr ent (wd (rd (sfA w)) j))))

/-- VTABF (R153). -/
def execVtabf (c : CoreId) (s : State) : Host.Outcome State Fault Refusal := .next (s.vtab c 0x20 0)

/-- VTABD (R153). -/
def execVtabd (c : CoreId) (s : State) : Host.Outcome State Fault Refusal := .next (s.vtab c 0x21 1)

/-- The rounding faults of an instruction with RND (R51, R52): the Molt has no stochastic rounding. -/
def rndFaults (c : CoreId) (rnd : Nat) : List (Bool × Nat × Nat) := [(coreMolt c && rnd == 1, 0x0105, 0), (rnd == 3, 0x0107, 0)]

/-- The shape of VBF16 and VFP16 (R72): FN[3:0] the function, FN[5:4] RND, FN[6] SAT. -/
def State.v16 (s : State) (c : CoreId) (op : Nat) (l : FLayout) : State :=
  s.vector c (isOp op) (fun w =>
    let fn := fld (sfFn w) 0 4
    let rnd := fld (sfFn w) 4 2
    vspec w ((decide (7 < fn), 0x0202, 0) :: rndFaults c rnd)
      (sfA w :: ((if fn == 6 || fn == 7 then [] else [sfB w]) ++ (if fn == 3 then [sfD w] else []))) false (rnd == 1)
      (fun pr rd lf => v16Res l fn (Rnd.ofCode rnd) (nbit (sfFn w) 6) lf pr (rd (sfD w)) (rd (sfA w)) (rd (sfB w))))

/-- VBF16 (R72). -/
def execVbf16 (c : CoreId) (s : State) : Host.Outcome State Fault Refusal := .next (s.v16 c 0x11 lay16b)

/-- VFP16 (R72). -/
def execVfp16 (c : CoreId) (s : State) : Host.Outcome State Fault Refusal := .next (s.v16 c 0x12 lay16h)

/-- VI32 (R72). -/
def execVi32 (c : CoreId) (s : State) : Host.Outcome State Fault Refusal :=
  .next (s.vector c (isOp 0x13) (fun w =>
    vspec w [(decide (0x0C < sfFn w), 0x0202, 0)] [sfA w, sfB w] true false
      (fun pr rd _ => vi32Res (sfFn w) pr (rd (sfA w)) (rd (sfB w)))))

/-- VCMP (R72, R73). -/
def execVcmp (c : CoreId) (s : State) : Host.Outcome State Fault Refusal :=
  .next (s.vector c (isOp 0x14) (fun w =>
    let k := fld (sfFn w) 0 3
    let lane := fld (sfFn w) 3 2
    let d := sfD w
    { pre := [(decide (0x20 ≤ sfFn w) || k == 7, 0x0202, 0),
        (if lane = 1 ∨ lane = 2 then !(d == 2 || d == 4 || d == 6) else decide (7 < d), 0x020B, 0)]
      srcs := [sfA w, sfB w], dst := none, mayWrite30 := true, stochastic := false, post := []
      run := fun c rd _ => vcmpRes lane k d (c.p (sfPr w)) (c.p d) (c.p (d + 1)) (rd (sfA w)) (rd (sfB w))
      stores := noStores }))

/-- The formats that the Molt's row of R47 offers to VCVT and VLD. DEDUCED: log entry 111. -/
def moltFmt (f : Fmt) : Bool := f == .fp32 || f == .bf16 || f == .splHi

/-- VCVT (R72, R74, R448): 0x0104 comes before 0x0101 (R84). DEDUCED: log entries 23, 111. -/
def execVcvt (c : CoreId) (s : State) : Host.Outcome State Fault Refusal :=
  .next (s.vector c (isOp 0x15) (fun w =>
    let src := Fmt.ofCode (sfB w % 16)
    let dst := Fmt.ofCode (fld (sfFn w) 0 4)
    let rnd := fld (sfFn w) 4 2
    vspec w ([(decide (16 ≤ sfB w), 0x0202, 0), (!coreMolt c && (src == .splLo || dst == .splLo), 0x0104, 0),
        (src == .reserved || src == .splLo || dst == .splHi || dst == .splLo || dst == .reserved
          || (coreMolt c && !(moltFmt src && moltFmt dst)), 0x0101, 0)] ++ rndFaults c rnd)
      [sfA w] (dst == .fp32) (rnd == 1)
      (fun pr rd lf => vcvtRes src dst (Rnd.ofCode rnd) (nbit (sfFn w) 6) lf pr (rd (sfA w)))))

/-- The address of a vector load or store: gA + gB (R72). DEDUCED: log entry 22. -/
def State.vecAddr (s : State) (c : CoreId) (w : Word) : Nat := (s.readG c (sfA w) + s.readG c (sfB w)).toNat

/-- VLD (R74, R75). DEDUCED: log entries 22, 23, 111. -/
def execVld (c : CoreId) (s : State) : Host.Outcome State Fault Refusal :=
  .next (s.vector c (isOp 0x16) (fun w =>
    let f := Fmt.ofCode (fld (sfFn w) 0 4)
    let wide := nbit (sfFn w) 4
    let sh := vldShape f wide
    let n := (sh.getD (0, 1)).1
    let a := s.vecAddr c w
    let ok30 := !wide && (f == .fp32 || f == .bf16 || f == .fp16 || f == .e4m3 || f == .e5m2 || f == .int8 || f == .int32)
    { pre := [(decide (0x20 ≤ sfFn w), 0x0202, 0), (!coreMolt c && f == .splLo, 0x0104, 0),
        (sh.isNone || (coreMolt c && !moltFmt f), 0x0101, 0)]
      srcs := [], dst := some (sfD w), mayWrite30 := ok30, stochastic := false, post := accessFaults (coreUnit c) a n (sh.getD (0, 1)).2
      run := fun k _ _ => vldRes f wide (s.bytesAs (coreBench c) (agentOf (coreUnit c)) (fsLoc (coreBench c) (coreUnit c) a) n) (k.p (sfPr w))
      stores := noStores }))

/-- VST (R74, R75): the words that PR selects. DEDUCED: log entries 22, 23. -/
def execVst (c : CoreId) (s : State) : Host.Outcome State Fault Refusal :=
  .next (s.vector c (isOp 0x17) (fun w =>
    let a := s.vecAddr c w
    { pre := [(sfFn w != 0, 0x0202, 0)], srcs := [sfD w], dst := none, mayWrite30 := true, stochastic := false
      post := accessFaults (coreUnit c) a 1024 4
      run := fun _ _ _ => ⟨[], .none, none, []⟩
      stores := fun k rd => (List.range 256).filterMap (fun j =>
        if (k.p (sfPr w)).getLsbD j then some (fsLoc (coreBench c) (coreUnit c) (a + 4 * j), leBytes 4 (wd (rd (sfD w)) j).toNat) else none) }))

/-- A VPERM word with function `fn`; the reserved functions belong to VCOMPRESS's row. -/
def isPerm (fn : Nat) (w : Word) : Bool := isOp 0x18 w && (sfFn w == fn || (fn == 0 && decide (5 < sfFn w)))

/-- VCOMPRESS (R155). DEDUCED: log entry 23. -/
def execVcompress (c : CoreId) (s : State) : Host.Outcome State Fault Refusal :=
  .next (s.vector c (isPerm 0) (fun w =>
    vspec w [(sfFn w != 0 || sfB w != 0, 0x0202, 0)] [sfA w] true false (fun pr rd _ => vcompressRes pr (rd (sfA w)))))

/-- VEXPAND (R155). -/
def execVexpand (c : CoreId) (s : State) : Host.Outcome State Fault Refusal :=
  .next (s.vector c (isPerm 1) (fun w =>
    vspec w [(sfB w != 0, 0x0202, 0)] [sfA w] true false (fun pr rd _ => vexpandRes pr (rd (sfA w)))))

/-- VBCAST (R72). -/
def execVbcast (c : CoreId) (s : State) : Host.Outcome State Fault Refusal :=
  .next (s.vector c (isPerm 2) (fun w =>
    vspec w [] [] true false (fun pr _ _ => lanes pr (fun _ => (BitVec.setWidth 32 (s.readG c (sfA w)), .none)))))

/-- VMOVG (R72). -/
def execVmovg (c : CoreId) (s : State) : Host.Outcome State Fault Refusal :=
  .next (s.vector c (isPerm 3) (fun w =>
    { pre := [], srcs := [sfA w], dst := none, mayWrite30 := true, stochastic := false, post := []
      run := fun k rd _ => ⟨[], .none, some (BitVec.setWidth 64 (wd (rd (sfA w)) ((k.g (sfB w)).toNat % 256))), []⟩
      stores := noStores }))

/-- VSUMMARY (R156). -/
def execVsummary (c : CoreId) (s : State) : Host.Outcome State Fault Refusal :=
  .next (s.vector c (isPerm 4) (fun w =>
    { pre := [(decide (8 ≤ sfB w), 0x0202, 0)], srcs := [sfA w], dst := none, mayWrite30 := true, stochastic := false, post := []
      run := fun k rd _ => vsummaryRes (sfB w) (k.p (sfPr w)) (rd (sfA w))
      stores := noStores }))

/-- VIOTA (R72). -/
def execViota (c : CoreId) (s : State) : Host.Outcome State Fault Refusal :=
  .next (s.vector c (isPerm 5) (fun w => vspec w [] [] true false (fun pr _ _ => lanes pr (fun j => (w32 j, .none)))))

end Sys2Proof.Machine
end

