-- ==== Sys2Proof/Machine/Sieve.lean ====
section
/-!
DEFINITION. Block-sparse tensors and the Sieve (R163 to R171, R183, R185): the geometry and the checks of a header, the tiles
that the two channels take, and the close. A channel holds a tensor's elements until its close, where the blocks, the bitmap,
the row-count table and the header are written in the form of R164.
-/

namespace Sys2Proof.Machine

/-! ### Headers (R163, R164, R166) -/

/-- A field of a header. -/
def hdField (h : List Byte) (off n : Nat) : Nat := leNat ((h.drop off).take n)
/-- FMT. -/
def hdFmt (h : List Byte) : Fmt := if 15 < hdField h 0 1 then .reserved else Fmt.ofCode (hdField h 0 1)
/-- B, the block edge. -/
def hdB (h : List Byte) : Nat := 8 * 2 ^ (hdField h 1 1)
/-- FLAGS.DENSE. -/
def hdDense (h : List Byte) : Bool := nbit (hdField h 2 1) 0
/-- FLAGS.VALID. -/
def hdValid (h : List Byte) : Bool := nbit (hdField h 2 1) 1
/-- ROWS. -/
def hdRows (h : List Byte) : Nat := hdField h 4 4
/-- COLS. -/
def hdCols (h : List Byte) : Nat := hdField h 8 4
/-- NBLK. -/
def hdNblk (h : List Byte) : Nat := hdField h 0xC 4
/-- BMOFF. -/
def hdBmoff (h : List Byte) : Nat := hdField h 0x10 4
/-- RCOFF. -/
def hdRcoff (h : List Byte) : Nat := hdField h 0x14 4
/-- DOFF. -/
def hdDoff (h : List Byte) : Nat := hdField h 0x18 4
/-- BUFSZ. -/
def hdBufsz (h : List Byte) : Nat := hdField h 0x1C 4
/-- CSIZE. -/
def hdCsize (h : List Byte) : Nat := hdField h 0x20 4
/-- NBR. -/
def hdNbr (h : List Byte) : Nat := ceilDiv (hdRows h) (hdB h)
/-- NBC. -/
def hdNbc (h : List Byte) : Nat := ceilDiv (hdCols h) (hdB h)
/-- bb, the bytes of a block. -/
def hdBb (h : List Byte) : Nat := hdB h * hdB h * (hdFmt h).bits / 8
/-- BMB. -/
def hdBmb (h : List Byte) : Nat := 64 * ceilDiv (hdNbr h * hdNbc h) 512
/-- RCB. -/
def hdRcb (h : List Byte) : Nat := 64 * ceilDiv (hdNbr h) 32
/-- D, the bytes of the dense form (R170). -/
def hdDenseSize (h : List Byte) : Nat := hdNbr h * hdNbc h * hdBb h

/-- The regions of a tensor from its header's address: offset and length (R166). -/
def hdRegions (h : List Byte) : List (Nat × Nat) :=
  [(hdBmoff h, hdBmb h)] ++ (if hdRcoff h = 0 then [] else [(hdRcoff h, hdRcb h)]) ++ [(hdDoff h, hdBufsz h)]

/-- No two of the ranges overlap. -/
def disjointRanges : List (Nat × Nat) → Bool
  | [] => true
  | r :: rs => rs.all (fun q => !rangesMeet r.1 r.2 q.1 q.2) && disjointRanges rs

/-- A header at `a` is accepted by the Sieve (R166). DEDUCED: log entry 114. -/
def hdAccepted (a : Nat) (h : List Byte) : Bool :=
  let f := hdFmt h
  let rs := (0, 64) :: hdRegions h
  (f == .fp32 || f == .bf16 || f == .fp16 || f == .e4m3 || f == .e5m2 || f == .int8 || f == .int32)
    && decide (hdField h 1 1 < 3) && decide (1 ≤ hdRows h) && decide (hdRows h ≤ 65536) && decide (1 ≤ hdCols h) && decide (hdCols h ≤ 65536)
    && a % 64 == 0 && rs.all (fun r => decide (a + r.1 + r.2 ≤ 0x800000)) && disjointRanges rs && decide (hdDenseSize h ≤ hdBufsz h)

/-- An element that R165 counts as zero: 0, or in a floating-point format −0. -/
def zeroElem (f : Fmt) (w : Nat) : Bool := if f == .int8 || f == .int32 then w == 0 else w % 2 ^ (f.bits - 1) == 0

/-! ### A channel's tensor -/

/-- The elements of block `k` in row-major order, +0 where the extent ends (R164). -/
def SieveTensor.block (t : SieveTensor) (k : Nat) : List Nat :=
  let h := t.head
  let bB := hdB h
  (List.range (bB * bB)).map (fun e =>
    let r := k / hdNbc h * bB + e / bB
    let c := k % hdNbc h * bB + e % bB
    if r < hdRows h ∧ c < hdCols h then smGet (fun _ => 0) t.elems (r * hdCols h + c) else 0)

/-- Block `k` is present (R165). -/
def SieveTensor.isPresent (t : SieveTensor) (k : Nat) : Bool := (t.block k).any (fun w => !zeroElem (hdFmt t.head) w)

/-- The bytes of the regions of a tensor as they stand. -/
def State.tensorBytes (s : State) (b u hdr : Nat) (h : List Byte) : List Byte :=
  (hdRegions h).flatMap (fun r => s.bytesAs b u (fsLoc b u (hdr + r.1)) r.2)

/-- A tensor opened at a header (R169): FLAGS is written with VALID = 0 and DENSE = 0; `none` where the header is not accepted. -/
def State.openTensor (s : State) (b u hdr : Nat) : Option (SieveTensor × State) :=
  let h := s.bytesAs b u (fsLoc b u hdr) 64
  if hdAccepted hdr h then
    some (⟨hdr, h, [], s.tensorBytes b u hdr h, [], false⟩, s.storeAs b u (fsLoc b u (hdr + 2)) [BitVec.ofNat 8 (hdField h 2 1 / 4 * 4)])
  else none

/-- Elements put into a tensor: row, column, raw bits; those outside its extent are discarded (R167, R168).
DEDUCED: log entry 38. -/
def SieveTensor.put (t : SieveTensor) (es : List (Nat × Nat × Nat)) : SieveTensor :=
  { t with elems := es.foldl (fun m e =>
    if e.1 < hdRows t.head ∧ e.2.1 < hdCols t.head then smSet (fun _ => 0) m (e.1 * hdCols t.head + e.2.1) e.2.2 else m) t.elems }

/-- The stores of blocks that complete together (R169): each present one to the next packed position, in ascending index; `done` blocks
were complete before. DEDUCED: log entry 38. -/
def SieveTensor.blockStores (t : SieveTensor) (b u : Nat) (done new : List Nat) : List (Nat × List Byte) :=
  let h := t.head
  let n := done.countP t.isPresent
  let ks := new.filter t.isPresent
  (List.range ks.length).map (fun i => (fsLoc b u (t.hdr + hdDoff h + (n + i) * hdBb h), packElems (hdFmt h).bits (t.block (ks.getD i 0))))

/-- The blocks that tiles complete: those not complete before whose elements have all been delivered, or never are (R169).
DEDUCED: log entry 38. -/
def SieveTensor.newBlocks (t : SieveTensor) (delivered : Nat → Nat → Bool) : List Nat :=
  let h := t.head
  let bB := hdB h
  (List.range (hdNbr h * hdNbc h)).filter (fun k => !t.complete.contains k && (List.range bB).all (fun i => (List.range bB).all (fun j =>
    let r := k / hdNbc h * bB + i
    let c := k % hdNbc h * bB + j
    decide (hdRows h ≤ r) || decide (hdCols h ≤ c) || delivered r c)))

/-- The stores of a close (R170), in order: block data, bitmap, row-count table, header; and whether it is dense.
DEDUCED: log entry 38. -/
def SieveTensor.closeStores (t : SieveTensor) (b u : Nat) : List (Nat × List Byte) × Bool × Nat :=
  let h := t.head
  let n := hdNbr h * hdNbc h
  let ks := (List.range n).filter t.isPresent
  let dense := !decide (hdBmb h + ks.length * hdBb h < hdDenseSize h)
  let at_ := fun off => fsLoc b u (t.hdr + off)
  let body := if dense then
      (List.range n).map (fun k => (at_ (hdDoff h + k * hdBb h),
        if t.isPresent k then packElems (hdFmt h).bits (t.block k) else List.replicate (hdBb h) 0))
    else (List.range ks.length).map (fun p => (at_ (hdDoff h + p * hdBb h), packElems (hdFmt h).bits (t.block (ks.getD p 0))))
  let meta_ := if dense then [] else
    [(at_ (hdBmoff h), leBytes (hdBmb h) (maskOf ks))] ++
    (if hdRcoff h = 0 then [] else [(at_ (hdRcoff h), padTo (hdRcb h) 0 ((List.range (hdNbr h)).flatMap (fun br =>
      leBytes 2 (ks.countP (fun k => k / hdNbc h == br)))))])
  let csize := if dense then hdDenseSize h else ks.length * hdBb h
  (body ++ meta_ ++ [(at_ 2, [BitVec.ofNat 8 (hdField h 2 1 / 4 * 4 + 2 + dense.toNat)]), (at_ 0xC, leBytes 4 ks.length), (at_ 0x20, leBytes 4 csize)],
    dense, ks.length)

/-- A fault of a channel recorded (R168, R183, R185). -/
def State.sivFault (s : State) (b u chan code hdr : Nat) : State :=
  let p := 0x58 + u
  let s := if wbit (s.reg b p Off.sivFault) 31 then s
    else (s.setReg b p Off.sivFault (w32 (0x80000000 + chan * 0x10000 + code))).setReg b p Off.sivFaultHdr (w32 hdr)
  s.setFlt b p

/-- A tensor that another agent wrote into while it was open holds undefined contents (R169): free bytes in its block data.
DESIGN CHOICE: log entry 39. -/
def State.spoilTensor (s : State) (b u : Nat) (t : SieveTensor) : State :=
  (s.storeAs b u (fsLoc b u (t.hdr + hdDoff t.head)) ((List.range (hdBufsz t.head)).map (Config.undefinedByte s.fresh))).draw

/-- SIEVE_TENSOR_CLOSE (R170, R171): the tensor's last form is written, then its header; channel V gives SIV_VSIG.
DEDUCED: log entry 38. -/
def execSieveTensorClose (u : UnitId) (ch : SieveChan) (s : State) : Host.Outcome State Fault Refusal :=
  let b := u.bench.val
  let f := u.unit.val
  let p := 0x58 + f
  .next (match (if ch = .d then (s.face b f).sieveD else (s.face b f).sieveV) with
    | none => s
    | some t =>
      if !t.closing then s
      else
        let spoiled := s.tensorBytes b f t.hdr t.head != t.before
        let c := t.closeStores b f
        let s1 := s.storesAs b f c.1
        let s1 := if spoiled then s1.spoilTensor b f t else s1
        if s.taskState b == 1 && s.inTask b f && !s1.specFits b (s1.bench b).held then s.noteStall b
        else
          let s1 := ((s1.bump b p Off.sivTens 1).bump b p Off.sivBlkin (hdNbr t.head * hdNbc t.head)).bump b p Off.sivBlkout c.2.2
          let s1 := if c.2.1 then (s1.bump b p Off.sivDense 1).raise b p 0x10000 else s1
          if ch = .d then s1.updFace b f (fun x => { x with sieveD := none })
          else (s1.updFace b f (fun x => { x with sieveV := none })).ringSignal b f (s.reg b p Off.sivVsig))

/-! ### Channel D (R167) -/

/-- The elements that a sparse drain delivers: rows, columns and raw FP32 bits of the live rows. -/
def State.sparseElems (s : State) (b u mask ord s0 slots : Nat) (on : List Nat) (bad : Nat → Nat → Nat → Bool) : List (Nat × Nat × Nat) :=
  (s.drainTiles b u mask s0 slots on bad).flatMap (fun t =>
    let o := s.colsBefore b u mask t.2.1
    (List.range t.2.2.2.2).flatMap (fun c => (List.range 16).map (fun i =>
      let w := (t.2.2.2.1 c i).toNat
      if ord = 0 then (o + c, t.2.2.1 + i, w) else (t.2.2.1 + i, o + c, w))))

/-- Channel D opens and fills the tensor of a drain; `none` where its header fails (0x0614). -/
def State.openD (s : State) (b u hdr : Nat) (es : List (Nat × Nat × Nat)) : Option State :=
  match s.openTensor b u hdr with
  | some (t, s) =>
    if hdFmt t.head = .fp32 then some (s.updFace b u (fun f => { f with sieveD := some { t.put es with closing := true } })) else none
  | none => none

/-! ### Channel V (R168) -/

/-- VNT: tiles per tensor. -/
def State.sivVnt (s : State) (b u : Nat) : Nat := let v := s.rfld b (0x58 + u) Off.sivCfg 0 8; if v = 0 then 256 else v

/-- Channel V is on: the page enabled and a header ring given. -/
def State.sivOn (s : State) (b u : Nat) : Bool := s.en b (0x58 + u) && s.rfld b (0x58 + u) Off.sivVhdr 24 8 != 0

/-- The elements of tile `k` of a tensor in slot order: raw bits by row and column. -/
def vTileElems (tall : Bool) (vtr k : Nat) (raw : Nat → Nat) : List (Nat × Nat × Nat) :=
  let hh := if tall then 128 else 16
  let ww := if tall then 16 else 128
  (List.range 2048).map (fun e => (hh * (k % vtr) + e / ww, ww * (k / vtr) + e % ww, raw e))

/-- A completed output slot at Face-store address `a` passes to channel V, and the blocks that it completes are written (R168, R169).
DEDUCED: log entries 38, 40. -/
def State.slotToV (s : State) (b u a : Nat) : State :=
  let p := 0x58 + u
  let i := (s.face b u).slotsV
  let n := i / s.sivVnt b u
  let k := i % s.sivVnt b u
  let cfg := s.reg b p Off.sivCfg
  let fmt := (s.outFmt b u).1
  let s := s.updFace b u (fun f => { f with slotsV := i + 1 })
  let hdr := wfld (s.reg b p Off.sivVhdr) 0 23 + 64 * (n % s.rfld b p Off.sivVhdr 24 8)
  let s := if k = 0 && !s.qsc b p then
      match s.openTensor b u hdr with
      | none => s.sivFault b u 1 0x0614 hdr
      | some (t, s') => if hdFmt t.head = fmt then s'.updFace b u (fun f => { f with sieveV := some t }) else s.sivFault b u 1 0x0615 hdr
    else s
  match (s.face b u).sieveV with
  | none => s
  | some t =>
    let es := vTileElems (!wbit cfg 13) (wfld cfg 8 3 + 1) k (fun e => s.elemAs b u (fsLoc b u a) fmt.bits e)
    let hh := if wbit cfg 13 then 16 else 128
    let ww := if wbit cfg 13 then 128 else 16
    let vtr := wfld cfg 8 3 + 1
    let t := t.put es
    let new := t.newBlocks (fun r c =>
      let i := c / ww * vtr + r / hh
      decide (vtr ≤ r / hh) || decide (s.sivVnt b u ≤ i) || decide (i ≤ k))
    let s := s.storesAs b u (t.blockStores b u t.complete new)
    s.updFace b u (fun f => { f with sieveV := some { t with complete := t.complete ++ new, before := s.tensorBytes b u t.hdr t.head,
                                                             closing := k + 1 == s.sivVnt b u } })

/-- The SIV_ page is reset or disabled with tensors open (R183): each stops with 0x0616, and so does a drain on channel D,
whose blocks so far stay written. -/
def State.stopSieve (s : State) (b u : Nat) : State :=
  let f := s.face b u
  let s := match f.sieveV with | some t => s.sivFault b u 1 0x0616 t.hdr | none => s
  let s := match f.sieveD with
    | some t => (s.storesSome b u (t.blockStores b u [] (t.newBlocks (fun _ _ => true)))).sivFault b u 0 0x0616 t.hdr
    | none => s
  let s := match f.sieveD, f.drain with
    | some _, some d => (s.updFace b u (fun x => { x with drain := none })).imprecise b u d.entry 0x0616 0
    | _, _ => s
  s.updFace b u (fun x => { x with sieveD := none, sieveV := none, slotsV := 0 })

end Sys2Proof.Machine
end

