-- ==== Sys2Proof/Machine/Weevil.lean ====
section
/-!
DEFINITION. The Weevil's gathers, merges and reductions (R173 to R184, R186): descriptors, the checks at issue and at start, the
rows they compute, and their completion. An operation reads when it starts; its writes become visible when it completes, those
before a fault at once (R178).
-/

namespace Sys2Proof.Machine

/-- The page of a Face's Weevil. -/
def wevPage (u : Nat) : Nat := 0x50 + u

/-! ### Descriptors (R174) -/

/-- A descriptor with the operands of its entry; `named` where the long form names an index tensor. -/
structure WDesc where
  src : Nat
  gallery : Bool
  sstr : Nat
  nsrc : Nat
  dstr : Nat
  rlen : Nat
  resv : Nat
  aux : Nat
  gb : Nat
  gc : Nat
  ix : Nat
  named : Bool
  imm : Nat
  fa : Fmt
  fb : Fmt
  lop : Nat

/-- The descriptor at GA. -/
def State.wdesc (s : State) (b u : Nat) (e : QEntry) : WDesc :=
  let h := s.bytesAs b u (fsLoc b u e.ga.toNat) 32
  { src := hdField h 0 8 % 2 ^ 63, gallery := nbit (hdField h 0 8) 63, sstr := hdField h 8 4, nsrc := hdField h 0xC 4, dstr := hdField h 0x10 4,
    rlen := hdField h 0x14 2, resv := hdField h 0x16 2, aux := hdField h 0x18 8, gb := e.gb.toNat, gc := e.gc.toNat, ix := e.ixr.toNat, named := lfIxr e.words != 0,
    imm := lfImm e.words, fa := lfFmtA e.words, fb := lfFmtB e.words, lop := lfLop e.words }

/-- The operation reads a sparse tensor: EXPAND, PACK, WSEGRED with SP = 1. -/
def wSparse (lop imm : Nat) : Bool := (lop == 0xC && (fld imm 0 2 == 1 || fld imm 0 2 == 2)) || (lop == 0xE && nbit imm 2)
/-- A PACK. -/
def WDesc.pack (w : WDesc) : Bool := w.lop == 0xC && fld w.imm 0 2 == 2
/-- jn of a WMERGE. -/
def WDesc.jn (w : WDesc) : Nat := fld w.imm 0 6 + 1
/-- OBF of a WMERGE or a WSEGRED. -/
def WDesc.obf (w : WDesc) : Bool := if w.lop = 0xD then nbit w.imm 6 else nbit w.imm 3
/-- The bytes of a source row. -/
def WDesc.rowBytes (w : WDesc) : Nat := elemBytes w.fa.bits w.rlen
/-- The format of the destination's elements. -/
def WDesc.outBits (w : WDesc) : Nat := if w.lop = 0xC then w.fa.bits else if w.obf then 16 else 32
/-- Entries of the index tensor. -/
def WDesc.nIdx (w : WDesc) : Nat := if w.lop = 0xD then w.gb * w.jn else if w.lop = 0xE then w.gb + 1 else w.gb
/-- The length of the destination, for rows of `n` elements. -/
def WDesc.dstLen (w : WDesc) (n : Nat) : Nat := if wSparse w.lop w.imm && w.lop == 0xE then w.gb * (w.outBits / 8) else (w.gb - 1) * w.dstr + elemBytes w.outBits n

/-- The precise faults of the Weevil's long forms from the format codes on, in the order of R84, R175 to R179.
DEDUCED: log entries 41, 42. -/
def State.weevilFaults (s : State) (b u : Nat) (ws : List Word) (ga gb : Nat) (ix : Nat) : List (Bool × Nat × Nat) :=
  let lop := lfLop ws
  let imm := lfImm ws
  let fa := lfFmtA ws
  let fb := lfFmtB ws
  let wide := fun (f : Fmt) => f == .fp32 || f == .bf16 || f == .fp16 || f == .e4m3 || f == .e5m2
  let noIdx := (lop == 0xC && fld imm 0 2 == 1) || (lop == 0xE && nbit imm 2)
  let _ := ix
  [(fa == .splLo || fb == .splLo, 0x0104, 0),
    (if lop = 0xC then fa == .reserved else if lop = 0xD then !wide fa || !(fb == .fp32 || fb == .bf16) else !wide fa, 0x0101, 0),
    (!s.en b (wevPage u), 0x020D, 0), (gb == 0 || decide (2 ^ 20 < gb), 0x0603, 0), ((lfIxr ws == 0) == !noIdx, 0x0604, 0),
    (ga % 32 != 0, 0x0206, ga), (decide (0x800000 < ga + 32), 0x0205, ga)]

/-! ### Sparse sources (R164 to R166) -/

/-- Bit `k` of a tensor's bitmap, where the compressed form has one. -/
def State.blockBit (s : State) (b u hdr : Nat) (h : List Byte) (k : Nat) : Bool :=
  (s.byteAs b u (fsLoc b u (hdr + hdBmoff h + k / 8))).getLsbD (k % 8)

/-- The present blocks of a compressed tensor, ascending. -/
def State.bitmapBlocks (s : State) (b u hdr : Nat) (h : List Byte) : List Nat := (List.range (hdNbr h * hdNbc h)).filter (s.blockBit b u hdr h)

/-- A header that a Weevil operation may read (R166, R175): `GB` must not exceed the rows, or cover them for a PACK.
DEDUCED: log entry 41. -/
def State.weevilHeaderOk (s : State) (b u : Nat) (w : WDesc) (h : List Byte) : Bool :=
  let n := hdNbr h * hdNbc h
  hdAccepted w.src h && hdValid h && hdFmt h == w.fa
    && (if hdDense h then hdCsize h == n * hdBb h
      else hdCsize h == hdNblk h * hdBb h && (s.bitmapBlocks b u w.src h).length == hdNblk h)
    && (if w.pack then decide (128 * ceilDiv (hdRows h) 128 ≤ w.gb) else decide (w.gb ≤ hdRows h))

/-- A tensor as a source: its header, the place of each block that is stored, and which blocks are present. -/
structure WTensor where
  head : List Byte
  at_ : Nat → Option Nat
  here : Nat → Bool

/-- The raw element (r, c) of a tensor at `hdr`. -/
def State.tensorElem (s : State) (b u hdr : Nat) (t : WTensor) (r c : Nat) : Nat :=
  let bB := hdB t.head
  match t.at_ (r / bB * hdNbc t.head + c / bB) with
  | some off => s.elemAs b u (fsLoc b u (hdr + off)) (hdFmt t.head).bits (r % bB * bB + c % bB)
  | none => 0

/-- The tensor that a header describes. In the dense form, a block is present when an element of it is not zero; an
absent one reads as +0 (R165). -/
def State.tensorOf (s : State) (b u hdr : Nat) (h : List Byte) : WTensor :=
  if hdDense h then
    let f := hdFmt h
    let here := fun k => (List.range (hdB h * hdB h)).any (fun e => !zeroElem f (s.elemAs b u (fsLoc b u (hdr + hdDoff h + k * hdBb h)) f.bits e))
    { head := h, at_ := fun k => if here k then some (hdDoff h + k * hdBb h) else none, here := here }
  else
    let ks := s.bitmapBlocks b u hdr h
    { head := h, at_ := fun k => if ks.contains k then some (hdDoff h + ks.countP (· < k) * hdBb h) else none, here := fun k => ks.contains k }

/-- The present blocks of a block row. -/
def WTensor.rowBlocks (t : WTensor) (br : Nat) : List Nat := (List.range (hdNbc t.head)).filter (fun bc => t.here (br * hdNbc t.head + bc))

/-! ### The checks at start (R179) -/

/-- A malformed descriptor (0x0610). DEDUCED: log entry 41. -/
def WDesc.malformed (w : WDesc) : Bool :=
  let sparse := wSparse w.lop w.imm
  let es := max 1 (w.fa.bits / 8)
  let ds := max 1 (w.outBits / 8)
  let beyond := fun (a n : Nat) => decide (0x800000 < a + n)
  w.resv != 0
    || (if sparse then w.gallery || w.sstr != 0 || w.nsrc != 0 || w.rlen != 0 || w.src % 64 != 0 || beyond w.src 64
        else w.rlen == 0 || w.rlen * w.fa.bits % 8 != 0
          || (!w.gallery && (w.src % es != 0 || w.sstr % es != 0 || (w.nsrc != 0 && beyond w.src ((w.nsrc - 1) * w.sstr + w.rowBytes)))))
    || (if w.lop == 0xE && nbit w.imm 2 then w.dstr != 0 else w.dstr % ds != 0)
    || w.gc % ds != 0
    || (!sparse && beyond w.gc (w.dstLen w.rlen)) || (sparse && w.lop == 0xE && beyond w.gc (w.dstLen 0))
    || (w.named && (w.ix % 4 != 0 || beyond w.ix (4 * w.nIdx)))
    || (if w.lop = 0xD then w.aux % (w.fb.bits / 8) != 0 || beyond w.aux (w.gb * w.jn * (w.fb.bits / 8))
        else if w.pack then w.aux % 4 != 0 || decide (0x800000 ≤ w.aux) else w.aux != 0)

/-- For a sparse source, a destination or inverse range that leaves the Face store with the size that the header gives (0x0610).
DEDUCED: log entry 41. -/
def WDesc.malformedRange (w : WDesc) (h : List Byte) : Bool :=
  w.lop == 0xC && (decide (0x800000 < w.gc + w.dstLen (hdCols h)) || (w.pack && decide (0x800000 < w.aux + 4 * hdRows h)))

/-- The destination overlaps a source, the index tensor or the weights (0x0612). -/
def WDesc.overlaps (w : WDesc) (h : List Byte) : Bool :=
  let sparse := wSparse w.lop w.imm
  let len := w.dstLen (if sparse then hdCols h else w.rlen)
  let meets := fun (a n : Nat) => rangesMeet w.gc len a n
  (if sparse then ((0, 64) :: hdRegions h).any (fun r => meets (w.src + r.1) r.2)
    else !w.gallery && w.nsrc != 0 && meets w.src ((w.nsrc - 1) * w.sstr + w.rowBytes))
    || (w.named && meets w.ix (4 * w.nIdx)) || (w.lop == 0xD && meets w.aux (w.gb * w.jn * (w.fb.bits / 8)))

/-! ### Source rows -/

/-- Source row `i` (R174): a place that is no Gallery scratch stops with 0x0908 (R257). -/
def State.sourceRow (s : State) (b u : Nat) (w : WDesc) (i : Nat) : Ans :=
  let a := w.src + i * w.sstr
  if w.gallery then vaRead s b u u (fun l => locRegion l == 3) (linePieces (w.rowBytes / 128 + 2) a w.rowBytes)
  else ⟨0, s.bytesAs b u (fsLoc b u a) w.rowBytes, s⟩

/-- Entry `k` of the index tensor. -/
def State.wIndex (s : State) (b u : Nat) (w : WDesc) (k : Nat) : Int := sext 32 (s.natAs b u (fsLoc b u (w.ix + 4 * k)) 4)

/-- What an operation computes: its writes, a fault with the position and the value of its index, its count for WEV_LAST and
WEV_SPLIT, and the state after its reads. -/
structure WRes where
  writes : List (Nat × List Byte)
  fault : Option (Nat × Nat × Nat)
  count : Nat
  splits : Nat
  st : State

/-- Rows computed one by one until one faults: each gives its place with its bytes, or a fault (R178). -/
def rowsUntil (f : State → Nat → (Nat × List Byte) × Option (Nat × Nat × Nat) × State) (s : State) (acc : List (Nat × List Byte)) :
    List Nat → WRes
  | [] => ⟨acc, none, 0, 0, s⟩
  | d :: ds =>
    match f s d with
    | (w, none, s') => rowsUntil f s' (acc ++ [w]) ds
    | (_, some x, s') => ⟨acc, some x, 0, 0, s'⟩

/-- The place of destination row `d`. -/
def WDesc.dstRow (w : WDesc) (b u d : Nat) : Nat := fsLoc b u (w.gc + d * w.dstr)

/-- An index below −1, or at or above NSRC (R178). -/
def WDesc.badIndex (w : WDesc) (i : Int) : Bool := decide (i < -1) || decide ((w.nsrc : Int) ≤ i)

/-- WGATHER ROWS (R175). -/
def State.wRows (s : State) (b u : Nat) (w : WDesc) : WRes :=
  rowsUntil (fun s d =>
    let i := s.wIndex b u w d
    if w.badIndex i then ((0, []), some (0x0611, d, wrap 32 i), s)
    else if i = -1 then ((w.dstRow b u d, List.replicate w.rowBytes 0), none, s)
    else
      let r := s.sourceRow b u w i.toNat
      if r.code ≠ 0 then ((0, []), some (r.code, 0, leNat r.data), r.st) else ((w.dstRow b u d, r.data), none, r.st)) s [] (List.range w.gb)

/-- A tensor row in row-major order (R175). -/
def State.expandedRow (s : State) (b u : Nat) (w : WDesc) (t : WTensor) (r : Nat) : List Byte :=
  packElems (hdFmt t.head).bits ((List.range (hdCols t.head)).map (s.tensorElem b u w.src t r))

/-- WGATHER EXPAND (R175). -/
def State.wExpand (s : State) (b u : Nat) (w : WDesc) (t : WTensor) : WRes :=
  ⟨(List.range w.gb).map (fun r => (w.dstRow b u r, s.expandedRow b u w t r)), none, 0, 0, s⟩

/-- WGATHER PACK (R175): the rows of the block rows that hold a present block, the index tensor and the inverse list. -/
def State.wPack (s : State) (b u : Nat) (w : WDesc) (t : WTensor) : WRes :=
  let h := t.head
  let rows := (List.range (hdRows h)).filter (fun r => !(t.rowBlocks (r / hdB h)).isEmpty)
  let n := rows.length
  let total := if nbit w.imm 2 then 128 * ceilDiv n 128 else n
  let zero := List.replicate (elemBytes (hdFmt h).bits (hdCols h)) (0 : Byte)
  let body := (List.range total).map (fun p =>
    (w.dstRow b u p, match rows[p]? with | some r => s.expandedRow b u w t r | none => zero))
  let idx := (List.range total).map (fun p => (fsLoc b u (w.ix + 4 * p), leBytes 4 (match rows[p]? with | some r => r | none => 2 ^ 32 - 1)))
  let inv := (List.range (hdRows h)).map (fun r => (fsLoc b u (w.aux + 4 * r),
    leBytes 4 (if rows.contains r then rows.countP (· < r) else 2 ^ 32 - 1)))
  ⟨body ++ idx ++ inv, none, total, 0, s⟩

/-- An FP32 result stored as FP32 or BF16 (R176, R177). -/
def outElem (obf : Bool) (v : Word) : List Byte := if obf then leBytes 2 (convertElem .bf16 .nearest false 0 (of32 v)).1 else leBytes 4 v.toNat

/-- WMERGE (R176). -/
def State.wMerge (s : State) (b u : Nat) (w : WDesc) : WRes :=
  let wb := w.fb.bits / 8
  rowsUntil (fun s d =>
    let ks := (List.range w.jn).map (fun j => d * w.jn + j)
    match ks.find? (fun k => w.badIndex (s.wIndex b u w k)) with
    | some k => ((0, []), some (0x0611, k, wrap 32 (s.wIndex b u w k)), s)
    | none =>
      let live := ks.filter (fun k => decide (s.wIndex b u w k ≠ -1))
      let r := live.foldl (fun (acc : List (Num × List Byte) × Option (Nat × Nat × Nat) × State) k =>
        match acc.2.1 with
        | some _ => acc
        | none =>
          let x := acc.2.2.sourceRow b u w (s.wIndex b u w k).toNat
          if x.code ≠ 0 then (acc.1, some (x.code, 0, leNat x.data), x.st)
          else (acc.1 ++ [(decodeElem w.fb (s.natAs b u (fsLoc b u (w.aux + wb * k)) wb), x.data)], none, x.st)) ([], none, s)
      match r.2.1 with
      | some f => ((0, []), some f, r.2.2)
      | none =>
        let out := (List.range w.rlen).flatMap (fun e => outElem w.obf (r.1.foldl (fun (a : Word) x =>
          (to32 (Num.add (Num.mul x.1 (decodeElem w.fa (packedElem x.2 w.fa.bits e))) (of32 a))).1) 0))
        ((w.dstRow b u d, out), none, r.2.2)) s [] (List.range w.gb)

/-- One term taken into a reduction (R177): OP 0 SUM, 1 SUMSQ, 2 MAXABS. DEDUCED: log entry 43. -/
def reduceTerm (op : Nat) (a : Word) (x : Num) : Word :=
  match op with
  | 0 => (to32 (Num.add (of32 a) x)).1
  | 1 => (to32 (Num.add (of32 a) (Num.mul x x))).1
  | _ => let v := Num.abs x
    if of32 a == .nan || v == .nan then nan32 else if Num.lt (of32 a) v then (to32 v).1 else a

/-- The partial results of a split row combined in piece order (R182). DEDUCED: log entry 43. -/
def combine (op : Nat) : List Word → Word
  | [] => 0
  | p :: ps => ps.foldl (fun a x => if op = 2 then reduceTerm 2 a (of32 x) else (to32 (Num.add (of32 a) (of32 x))).1) p

/-- The number of pieces of a row of count `c` among `n` rows of `total` (R182). -/
def pieceCount (nosplit : Bool) (n total c : Nat) : Nat :=
  if nosplit || decide (c * n ≤ 4 * total) then 1 else min 16 (ceilDiv c (ceilDiv (4 * total) n))

/-- A list cut into `k` consecutive pieces that differ in size by at most one, the larger first (R182). -/
def cutPieces {α : Type} (k : Nat) (l : List α) : List (List α) :=
  (List.range k).map (fun i =>
    let q := l.length / k
    let r := l.length % k
    (l.drop (i * q + min i r)).take (q + if i < r then 1 else 0))

/-- WSEGRED with SP = 0 (R177, R178, R182). -/
def State.wSegRows (s : State) (b u : Nat) (w : WDesc) : WRes :=
  let op := fld w.imm 0 2
  let off := fun k => s.natAs b u (fsLoc b u (w.ix + 4 * k)) 4
  let total := (List.range w.gb).foldl (fun t k => t + (off (k + 1) - off k)) 0
  let pieces := fun c => pieceCount (wbit (s.reg b (wevPage u) Off.wevCfg) 0) w.gb total c
  let r := rowsUntil (fun s d =>
    if w.nsrc < off d then ((0, []), some (0x0613, d, off d), s)
    else if off (d + 1) < off d ∨ w.nsrc < off (d + 1) then ((0, []), some (0x0613, d + 1, off (d + 1)), s)
    else
      let rows := (List.range (off (d + 1) - off d)).foldl (fun (acc : List (List Byte) × Option (Nat × Nat × Nat) × State) i =>
        match acc.2.1 with
        | some _ => acc
        | none => let x := acc.2.2.sourceRow b u w (off d + i)
          if x.code ≠ 0 then (acc.1, some (x.code, 0, leNat x.data), x.st) else (acc.1 ++ [x.data], none, x.st)) ([], none, s)
      match rows.2.1 with
      | some f => ((0, []), some f, rows.2.2)
      | none =>
        let ps := cutPieces (pieces rows.1.length) rows.1
        let out := (List.range w.rlen).flatMap (fun e => outElem w.obf (combine op (ps.map (fun p =>
          p.foldl (fun a row => reduceTerm op a (decodeElem w.fa (packedElem row w.fa.bits e))) 0))))
        ((w.dstRow b u d, out), none, rows.2.2)) s [] (List.range w.gb)
  { r with splits := (List.range w.gb).countP (fun k => decide (1 < pieces (off (k + 1) - off k))) }

/-- WSEGRED with SP = 1 (R177, R182). -/
def State.wSegSparse (s : State) (b u : Nat) (w : WDesc) (t : WTensor) : WRes :=
  let h := t.head
  let op := fld w.imm 0 2
  let n := hdNbr h
  let plan := hdRcoff h != 0 && !hdDense h
  let cnt := fun br => s.natAs b u (fsLoc b u (w.src + hdRcoff h + 2 * br)) 2
  let total := (List.range n).foldl (fun a br => a + cnt br) 0
  let pieces := fun br => if plan then pieceCount (wbit (s.reg b (wevPage u) Off.wevCfg) 0) n total (cnt br) else 1
  let row := fun r =>
    let br := r / hdB h
    combine op ((cutPieces (pieces br) (t.rowBlocks br)).map (fun p => p.foldl (fun a bc =>
      (List.range (min (hdB h) (hdCols h - bc * hdB h))).foldl (fun a c =>
        reduceTerm op a (decodeElem (hdFmt h) (s.tensorElem b u w.src t r (bc * hdB h + c)))) a) 0))
  ⟨(List.range w.gb).map (fun r => (fsLoc b u (w.gc + r * (w.outBits / 8)), outElem w.obf (row r))), none, 0,
    (List.range n).countP (fun br => decide (1 < pieces br)), s⟩

/-! ### Start and completion -/

/-- WEV_FAULT and its companions, for the first fault since the last read (R184). -/
def State.wevFault (s : State) (b u code idx val : Nat) : State :=
  let p := wevPage u
  let s := if wbit (s.reg b p Off.wevFault) 31 then s
    else ((s.setReg b p Off.wevFault (w32 (0x80000000 + code))).setReg b p Off.wevFaultIdx (w32 idx)).setReg b p Off.wevFaultVal (w32 val)
  s.setFlt b p

/-- A Weevil operation stops with a fault (R82, R178, R218). -/
def State.failWeevil (s : State) (b u : Nat) (e : QEntry) (code idx val : Nat) : State :=
  let sys := decide (0x0900 ≤ code)
  let s := if sys then s.xltFault b (16 + u) code val else s
  (s.wevFault b u code (if sys then 0 else idx) (if sys then 0 else val)).imprecise b u e code 0

/-- The operation of an entry whose checks have passed. -/
def State.wCompute (s : State) (b u : Nat) (w : WDesc) (t : WTensor) : WRes :=
  match w.lop with
  | 0xC => match fld w.imm 0 2 with
    | 0 => s.wRows b u w
    | 1 => s.wExpand b u w t
    | _ => s.wPack b u w t
  | 0xD => s.wMerge b u w
  | _ => if nbit w.imm 2 then s.wSegSparse b u w t else s.wSegRows b u w

/-- WGATHER, WMERGE or WSEGRED starts (R179): its checks in order, its plan, whose split rows are counted (R182), and its rows; where it
must wait for its requests' slots, nothing has happened and the state is `back` (R229). -/
def State.startWeevil (s : State) (b u : Nat) (e : QEntry) (back : State) : State :=
  let w := s.wdesc b u e
  let sparse := wSparse w.lop w.imm
  let h := s.bytesAs b u (fsLoc b u w.src) 64
  if w.lop = 0xC && fld w.imm 0 2 == 0 && w.fa.isMx && w.rlen % 32 != 0 then s.failWeevil b u e 0x0102 0 0
  else if w.malformed || (sparse && w.malformedRange h) then s.failWeevil b u e 0x0610 0 0
  else if sparse && !s.weevilHeaderOk b u w h then s.failWeevil b u e 0x0614 0 0
  else if w.overlaps h then s.failWeevil b u e 0x0612 0 0
  else
    let r := s.wCompute b u w (s.tensorOf b u w.src h)
    let t := r.st.bump b (wevPage u) Off.wevSplit r.splits
    match r.fault with
    | some (code, idx, val) => if waitCode ≤ code then back.noteWait b code else (t.storesAs b u r.writes).failWeevil b u e code idx val
    | none =>
      let op : RunOp := { entry := e, writes := r.writes, rsig := none, slabs := [], lo := 0, hi := 0, tiles := [], failed := false,
                          ended := false, tally := [r.count], src := none }
      t.updFace b u (fun f => { f with weevil := some op })

/-- A Weevil operation whose writes become visible (R180), then its SIGNAL (R106); `eff` is what its own registers gain. -/
def State.endWeevil (s : State) (b u : Nat) (op : RunOp) (eff : State → State) : State :=
  if s.storeStalls b u op.writes then s.noteStall b
  else
    let s := (eff ((s.storesAs b u op.writes).bump b (wevPage u) Off.wevOps 1)).spend b (wevPage u) Off.wevBusy Off.wevLost
    if s.signalRoom b u op.entry.words then (s.giveSignal b u op.entry.words).updFace b u (fun x => { x with weevil := none })
    else s.updFace b u (fun x => { x with weevil := some { op with ended := true } })

/-- WEEVIL_OP_COMPLETE (R180, R184). DESIGN CHOICE: log entry 37. -/
def execWeevilOpComplete (u : UnitId) (s : State) : Host.Outcome State Fault Refusal :=
  let b := u.bench.val
  let f := u.unit.val
  .next (match (s.face b f).weevil with
    | none => s
    | some op =>
      if op.ended || lfLop op.entry.words == 0xF then s
      else s.endWeevil b f op (fun s =>
        if lfLop op.entry.words = 0xC ∧ fld (lfImm op.entry.words) 0 2 = 2 then s.setReg b (wevPage f) Off.wevLast (w32 (op.tally.headD 0)) else s))

/-- The WEV_ page is reset or disabled while an operation runs (R183, R198): what it had written stays. -/
def State.stopWeevil (s : State) (b u : Nat) : State :=
  match (s.face b u).weevil with
  | some op => (((if op.ended then s else s.storesSome b u op.writes).updFace b u (fun f => { f with weevil := none })).wevFault b u 0x0616 0 0).imprecise b u op.entry 0x0616 0
  | none => s

end Sys2Proof.Machine
end

