-- ==== Sys2Proof/Machine/Route.lean ====
section
/-!
DEFINITION. Expert routing on the Weevil: WROUTE (R187 to R200), its hash, its placement, what it writes, and its completion.
-/

namespace Sys2Proof.Machine

/-- The hash of a token under its layer's seed (R189). -/
def routeHash (seed : DWord) (tok : Nat) : DWord :=
  let z := seed ^^^ BitVec.ofNat 64 tok
  let z := (z ^^^ (z >>> 33)) * 0xA24B1F6D93C5E717#64
  let z := (z ^^^ (z >>> 29)) * 0x5C81E3B92D07F44B#64
  z ^^^ (z >>> 32)

/-- Probe `j` of a hash among `ne` experts, a power of two (R190). -/
def probe (z : DWord) (ne j : Nat) : Nat :=
  let start := (z >>> 58).toNat % ne
  let step := (z >>> 40).toNat % ne ||| 1
  (start + j * step) % ne

/-- The settings of the WROUTE registers (R199) with an entry's operands. -/
structure RouteCfg where
  ne : Nat
  k : Nat
  pmax : Nat
  padm : Nat
  nface : Nat
  norm : Bool
  c : Nat
  seedt : Nat
  score : Nat
  midx : Nat
  mwgt : Nat
  drop : Nat
  cnt : Nat
  bal : Nat
  ga : Nat
  gb : Nat
  gc : Nat
  prio : Option Nat
  fmt : Fmt
  layer : Nat

/-- The settings in force for an entry. -/
def State.routeCfg (s : State) (b u : Nat) (e : QEntry) : RouteCfg :=
  let p := wevPage u
  let g := s.reg b p Off.wevRtGeom
  let a := fun o => s.rfld b p o 0 23
  { ne := 2 ^ wfld g 0 3, k := wfld g 3 2 + 1, pmax := wfld g 5 3 + 1, padm := [1, 16, 64, 128].getD (wfld g 8 2) 1, nface := wfld g 10 3,
    norm := wbit g 13, c := s.rfld b p Off.wevRtCap 0 13, seedt := a Off.wevRtSeedt, score := a Off.wevRtScore, midx := a Off.wevRtMidx,
    mwgt := a Off.wevRtMwgt, drop := a Off.wevRtDrop, cnt := a Off.wevRtCnt, bal := a Off.wevRtBal, ga := e.ga.toNat, gb := e.gb.toNat,
    gc := e.gc.toNat, prio := if lfIxr e.words = 0 then none else some e.ixr.toNat, fmt := lfFmtA e.words,
    layer := fld (lfImm e.words) 0 6 }

/-- SS, the pitch of the score rows (R188). -/
def RouteCfg.ss (r : RouteCfg) : Nat := 64 * ceilDiv (r.ne * r.fmt.bits) 512
/-- RCAP (R193). -/
def RouteCfg.rcap (r : RouteCfg) : Nat := r.padm * ceilDiv r.c r.padm
/-- pad[e] for a live count (R193). -/
def RouteCfg.pad (r : RouteCfg) (live : Nat) : Nat := r.padm * ceilDiv live r.padm
/-- Bytes of the drop mask. -/
def RouteCfg.maskLen (r : RouteCfg) : Nat := 64 * ceilDiv (r.gb * r.k) 512

/-- The output regions (R193). -/
def RouteCfg.outputs (r : RouteCfg) : List (Nat × Nat) :=
  [(r.gc, r.ne * 4 * r.rcap), (r.midx, 4 * r.gb * r.k), (r.mwgt, 4 * r.gb * r.k), (r.drop, r.maskLen), (r.cnt, 64 * ceilDiv r.ne 8)]
    ++ (if r.nface = 0 then [] else [(r.bal, 64 * ceilDiv r.ne 64 + 4 * r.nface)])

/-- The input regions. -/
def RouteCfg.inputs (r : RouteCfg) : List (Nat × Nat) :=
  [(r.ga, 8 * r.gb), (r.score, r.gb * r.ss), (r.seedt, 512)] ++ (match r.prio with | some a => [(a, 4 * r.gb)] | none => [])

/-- A region leaves the Face store, or an output overlaps another region (R198, 0x0713). DEDUCED: log entry 44. -/
def RouteCfg.regionsBad (r : RouteCfg) : Bool :=
  (r.outputs ++ r.inputs).any (fun x => decide (0x800000 < x.1 + x.2)) || !disjointRanges r.outputs
    || r.outputs.any (fun o => r.inputs.any (fun i => rangesMeet o.1 o.2 i.1 i.2))

/-- The precise faults of WROUTE from the format codes on (R84, R187, R198); a list beyond the store is
0x0713 at its start (R200). DEDUCED: log entry 42. -/
def State.routeFaults (s : State) (b u : Nat) (ws : List Word) (ga gb gc : Nat) : List (Bool × Nat × Nat) :=
  let fa := lfFmtA ws
  [(fa == .splLo, 0x0104, 0), (!(fa == .fp32 || fa == .bf16), 0x0101, 0), (!s.en b (wevPage u), 0x020D, 0),
    (gb == 0 || decide (65536 < gb), 0x0710, 0), (ga % 64 != 0, 0x0206, ga), (gc % 64 != 0, 0x0206, gc)]

/-- The placement so far (R191): live counts, arrivals after a full probe, probes, full probes, drops, tokens without a
placement, and the writes made, oldest first; drop bits by position. -/
structure Placing where
  live : SMap Nat
  late : SMap Nat
  probes : Nat
  ovf : Nat
  drops : Nat
  tdrop : Nat
  writes : List (Nat × List Byte)
  dropBits : List Nat
  doneToks : List Nat

/-- The choices of one token (R191): (expert, position in its list) in placement order, with the placing after it. -/
def placeToken (r : RouteCfg) (z : DWord) (p : Placing) : List (Nat × Nat) × Placing :=
  (List.range r.pmax).foldl (fun acc j =>
    if acc.1.length < r.k then
      let e := probe z r.ne j
      let n := smGet (fun _ => 0) acc.2.live e
      let q := { acc.2 with probes := acc.2.probes + 1 }
      if n < r.c then
        let late := if acc.1.length < j then smSet (fun _ => 0) q.late e (smGet (fun _ => 0) q.late e + 1) else q.late
        (acc.1 ++ [(e, n)], { q with live := smSet (fun _ => 0) q.live e (n + 1), late := late })
      else (acc.1, { q with ovf := q.ovf + 1 })
    else acc) ([], p)

/-- The weights of a token's placements; a NaN is written as the canonical NaN (R48, R194). -/
def routeWeights (norm : Bool) (scores : List Word) : List Word :=
  if !norm then scores.map (fun x => if of32 x == .nan then nan32 else x)
  else
    let sum := scores.foldl (fun a x => (to32 (Num.add (of32 a) (of32 x))).1) 0
    if Num.eqv (of32 sum) Num.zero then scores.map (fun _ => (to32 (Num.div (.fin false 1 0) (numOfInt scores.length))).1)
    else scores.map (fun x => (to32 (Num.div (of32 x) (of32 sum))).1)

/-- One token placed, with its writes (R191 to R194); `none` where SROW is below −1, with the value. -/
def State.routeToken (s : State) (b u : Nat) (r : RouteCfg) (seed : DWord) (p : Placing) (t : Nat) : Placing × Option Nat :=
  let ent := s.natAs b u (fsLoc b u (r.ga + 8 * t)) 8
  let srow := sext 32 (ent / 2 ^ 32)
  let p := { p with doneToks := t :: p.doneToks }
  if srow < -1 then (p, some (ent / 2 ^ 32))
  else if srow = -1 then (p, none)
  else
    let z := routeHash seed (ent % 2 ^ 32)
    let q := placeToken r z p
    let n := q.1.length
    let score := fun e => w32 (if r.fmt = .bf16 then 65536 * s.natAs b u (fsLoc b u (r.score + t * r.ss + 2 * e)) 2
      else s.natAs b u (fsLoc b u (r.score + t * r.ss + 4 * e)) 4)
    let ws := routeWeights r.norm (q.1.map (fun x => score x.1))
    let lists := q.1.map (fun x => (fsLoc b u (r.gc + x.1 * 4 * r.rcap + 4 * x.2), leBytes 4 (ent / 2 ^ 32)))
    let idx := (List.range r.k).map (fun j => (fsLoc b u (r.midx + 4 * (t * r.k + j)),
      leBytes 4 (match q.1[j]? with | some x => x.1 * r.rcap + x.2 | none => 2 ^ 32 - 1)))
    let wgt := (List.range r.k).map (fun j => (fsLoc b u (r.mwgt + 4 * (t * r.k + j)), leBytes 4 (ws.getD j 0).toNat))
    ({ q.2 with writes := q.2.writes ++ lists ++ idx ++ wgt, drops := q.2.drops + (r.k - n), tdrop := q.2.tdrop + (if n = 0 then 1 else 0),
                dropBits := (List.range (r.k - n)).map (fun j => t * r.k + n + j) ++ q.2.dropBits }, none)

/-- Tokens placed in order until one faults: the position and value of the fault. DEDUCED: log entry 44. -/
def State.routeTokens (s : State) (b u : Nat) (r : RouteCfg) (seed : DWord) (p : Placing) : List Nat → Placing × Option (Nat × Nat)
  | [] => (p, none)
  | t :: ts =>
    match s.routeToken b u r seed p t with
    | (p, some v) => (p, some (t, v))
    | (p, none) => s.routeTokens b u r seed p ts

/-- The bin with the lowest load, lowest bin first among equals. -/
def lowestBin (loads : List Nat) : Nat :=
  (List.range loads.length).foldl (fun m i => if loads.getD i 0 < loads.getD m 0 then i else m) 0

/-- The experts in descending order of pad, lower number first among equals (R195). -/
def byPad (pads : List Nat) : List Nat :=
  (List.range pads.length).foldl (fun acc e =>
    acc.takeWhile (fun x => decide (pads.getD e 0 ≤ pads.getD x 0)) ++ [e] ++ acc.dropWhile (fun x => decide (pads.getD e 0 ≤ pads.getD x 0))) []

/-- The balance of R195: the bin of each expert and the loads. -/
def balance (nface : Nat) (pads : List Nat) : SMap Nat × List Nat :=
  (byPad pads).foldl (fun acc e =>
    if pads.getD e 0 = 0 then acc
    else let i := lowestBin acc.2; (smInsert acc.1 e i, acc.2.set i (acc.2.getD i 0 + pads.getD e 0))) ([], List.replicate nface 0)

/-- The writes after the last placement (R193, R195). -/
def routeTail (b u : Nat) (r : RouteCfg) (p : Placing) : List (Nat × List Byte) :=
  let live := fun e => smGet (fun _ => 0) p.live e
  let es := List.range r.ne
  let bal := balance r.nface (es.map (fun e => r.pad (live e)))
  es.map (fun e => (fsLoc b u (r.gc + e * 4 * r.rcap + 4 * live e), (List.range (r.pad (live e) - live e)).flatMap (fun _ => leBytes 4 (2 ^ 32 - 1))))
    ++ es.map (fun e => (fsLoc b u (r.cnt + 8 * e), leBytes 2 (live e) ++ leBytes 2 (r.pad (live e)) ++ leBytes 4 (smGet (fun _ => 0) p.late e)))
    ++ (if r.nface = 0 then [] else
        [(fsLoc b u r.bal, es.map (fun e => if r.pad (live e) = 0 then 0xFF else BitVec.ofNat 8 (smGet (fun _ => 0) bal.1 e))),
          (fsLoc b u (r.bal + 64 * ceilDiv r.ne 64), bal.2.flatMap (leBytes 4))])
    ++ [(fsLoc b u r.drop, leBytes r.maskLen (maskOf p.dropBits))]

/-- The drop bits of the tokens handled before a fault. -/
def State.partialMask (s : State) (b u : Nat) (r : RouteCfg) (p : Placing) : List (Nat × List Byte) :=
  p.doneToks.flatMap (fun t => (List.range r.k).map (fun j =>
    let i := t * r.k + j
    (i, p.dropBits.contains i))) |>.foldl (fun (m : SMap Nat) x =>
      let k := x.1 / 8
      let old := smGet (fun k => (s.byteAs b u (fsLoc b u (r.drop + k))).toNat) m k
      smInsert m k (putFld old (x.1 % 8) 1 x.2.toNat)) [] |>.map (fun x => (fsLoc b u (r.drop + x.1), [BitVec.ofNat 8 x.2]))

/-- WROUTE starts (R198): its checks, then its placement. -/
def State.startRoute (s : State) (b u : Nat) (e : QEntry) : State :=
  let r := s.routeCfg b u e
  let order := match r.prio with
    | none => List.range r.gb
    | some a => (List.range r.gb).map (fun i => s.natAs b u (fsLoc b u (a + 4 * i)) 4)
  if r.regionsBad then s.failWeevil b u e 0x0713 0 0
  else if !((List.range r.gb).all (fun t => order.contains t)) then s.failWeevil b u e 0x0712 0 0
  else
    let seed := BitVec.ofNat 64 (s.natAs b u (fsLoc b u (r.seedt + 8 * r.layer)) 8)
    let q := s.routeTokens b u r seed ⟨[], [], 0, 0, 0, 0, [], [], []⟩ order
    let full := maskOf ((List.range r.ne).filter (fun x => decide (r.c ≤ smGet (fun _ => 0) q.1.live x)))
    match q.2 with
    | some (t, v) =>
      let p := wevPage u
      let s := s.storesAs b u (q.1.writes ++ s.partialMask b u r q.1)
      (((s.bump b p Off.wevDropCnt q.1.drops).bump b p Off.wevOvfCnt q.1.ovf).bump b p Off.wevRtTdrop q.1.tdrop).failWeevil b u e 0x0714 t v
    | none =>
      let op : RunOp := { entry := e, writes := q.1.writes ++ routeTail b u r q.1, rsig := none, slabs := [], lo := 0, hi := 0, tiles := [],
                          failed := false, ended := false, tally := [q.1.drops, q.1.ovf, q.1.probes, full, q.1.tdrop], src := none }
      s.updFace b u (fun f => { f with weevil := some op })

/-- WROUTE_COMPLETE (R197, R199). -/
def execWrouteComplete (u : UnitId) (s : State) : Host.Outcome State Fault Refusal :=
  let b := u.bench.val
  let f := u.unit.val
  let p := wevPage f
  .next (match (s.face b f).weevil with
    | none => s
    | some op =>
      if op.ended || lfLop op.entry.words != 0xF then s
      else s.endWeevil b f op (fun s =>
        let g := fun i => op.tally.getD i 0
        (((((s.bump b p Off.wevDropCnt (g 0)).bump b p Off.wevOvfCnt (g 1)).setReg b p Off.wevRtProbes (w32 (g 2))).setReg b p Off.wevRtFull0
          (w32 (g 3))).setReg b p Off.wevRtFull1 (w32 (g 3 / 2 ^ 32))).bump b p Off.wevRtTdrop (g 4)))

end Sys2Proof.Machine
end

