-- ==== Sys2Proof/Machine/Issue.lean ====
section
/-!
DEFINITION. The long forms of Sett (R76 to R79, R84, R107): their checks at issue, their entry into the unit queues, and LSYNC.
-/

namespace Sys2Proof.Machine

/-- The queue of a long opcode (R78); `none` for LSYNC and for reserved opcodes. -/
def lopQueue (lop : Nat) : Option QueueId :=
  match lop with
  | 0x01 | 0x02 | 0x03 | 0x04 => some .slab
  | 0x05 => some .chute
  | 0x08 => some .hauler
  | 0x0C | 0x0D | 0x0E | 0x0F => some .weevil
  | 0x10 => some .coll
  | 0x14 | 0x15 => some .task
  | _ => none

/-- A long opcode that R78 does not list. -/
def reservedLop (lop : Nat) : Bool := (lopQueue lop).isNone && lop != 0x18

/-- The operand fields that a long form uses, in the order GA, GB, GC, FMTA, FMTB, and the IMM19 bits that must be 0 (R78 and the
chapters it names). -/
def lopShape (lop : Nat) : List Bool × Nat :=
  match lop with
  | 0x01 | 0x02 => ([true, true, true, true, true], 0x7FFE0)
  | 0x03 => ([true, true, false, true, false], 0)
  | 0x04 => ([true, false, true, false, true], 0)
  | 0x05 => ([true, true, true, true, true], 0x7FFC0)
  | 0x08 => ([true, false, false, false, false], 0x7FFFE)
  | 0x0C => ([true, true, true, true, false], 0x7FFF8)
  | 0x0D => ([true, true, true, true, true], 0x7FF80)
  | 0x0E => ([true, true, true, true, false], 0x7FFF0)
  | 0x0F => ([true, true, true, true, false], 0x7FFC0)
  | 0x10 => ([true, false, false, true, false], 0x7FFFF)
  | 0x14 => ([true, false, false, false, false], 0x7FFFF)
  | 0x15 => ([false, false, false, false, false], 0x7FFFC)
  | _ => ([false, false, false, false, false], 0x7FFFF)

/-- The long forms that take an index tensor (R78). -/
def lopIndexed (lop : Nat) : Bool := lop == 0x08 || (decide (0x0C ≤ lop) && decide (lop ≤ 0x10))

/-- A reserved field of a long form is not 0 (R76, R78), token mode apart. -/
def longReserved (ws : List Word) : Bool :=
  let lop := lfLop ws
  let w2 := lfWord ws 2
  let w3 := lfWord ws 3
  let sh := lopShape lop
  let fields := [fld w2 22 5, fld w2 27 5, fld w3 0 5, fld w3 5 4, fld w3 9 4]
  fld (lfWord ws 0) 30 2 != 0 || fld w2 18 4 != 0 || (lfImm ws) &&& sh.2 != 0
    || (List.zip sh.1 fields).any (fun x => !x.1 && x.2 != 0)
    || ((lop == 0x0C || lop == 0x0E || lop == 0x15) && lfImm ws % 4 == 3)

/-- The faults of the unit of a long form from the format codes on, with the entry's operands (R84 and the unit's chapter).
DEDUCED: log entries 29, 42. -/
def State.unitFaults (s : State) (b u : Nat) (ws : List Word) (ga gb gc ix : Nat) : List (Bool × Nat × Nat) :=
  let aligned := fun (n m : Nat) => [(ga % n != 0, 0x0206, ga), (decide (storeSize u < ga + m), 0x0205, ga)]
  match lfLop ws with
  | 0x01 | 0x02 | 0x03 => s.slabFaults b u ws ga gb gc
  | 0x04 =>
    let imm := lfImm ws
    let sparse := nbit imm 7 && !nbit imm 6
    let l := s.slabFaults b u ws ga gb gc
    let p := 0x58 + u
    l.take 7 ++ [(sparse && (decide (2 ≤ fld imm 4 2) || fld imm 8 7 != 0), 0x0601, 0), (sparse && !s.en b p, 0x0602, 0)] ++ l.drop 7
  | 0x05 => s.chuteFaults b u ws ga gb gc
  | 0x08 =>
    (!s.en b (if nbit (lfImm ws) 0 then 0x66 else hlrPage u), 0x020D, 0) :: (if ga < 2 ^ 63 then
      [(ga % 2 ^ 23 % 64 != 0, 0x0206, ga % 2 ^ 23), (decide (0x800000 < ga % 2 ^ 23 + 128), 0x0205, ga % 2 ^ 23)] else [])
  | 0x0C | 0x0D | 0x0E => s.weevilFaults b u ws ga gb ix
  | 0x0F => s.routeFaults b u ws ga gb gc
  | 0x10 =>
    let fa := lfFmtA ws
    [(fa == .splLo, 0x0104, 0), (!(fa == .fp32 || fa == .bf16 || fa == .splHi), 0x0101, 0), (decide (storeSize u < ga + 64), 0x0205, ga)]
  | 0x14 => (!s.en b 0x98, 0x020D, 0) :: aligned 64 64
  | 0x15 => [(!s.en b 0x98, 0x020D, 0)]
  | _ => []

/-- Every precise fault of a long form from 0x0201 on, in the order of R84 and R107. DEDUCED: log entries 28, 29. -/
def State.longFaults (s : State) (c : CoreId) (ws : List Word) : List (Bool × Nat × Nat) :=
  let b := coreBench c
  let u := coreUnit c
  let k := s.core (coreKey c)
  let lop := lfLop ws
  let tok := s.tokenMode b u
  let g := fun lo => (k.g (fld (lfWord ws 2) lo 5)).toNat
  [(reservedLop lop, 0x0201, 0), (u == 6 && !(lop == 0x18 || lop == 0x10 || lop == 0x14 || lop == 0x15), 0x0C01, 0),
    (longReserved ws || (!tok && lfSk ws == 3), 0x0202, 0), (tok && lfWmask ws != 0, 0x0301, 0),
    (tok && (lfSk ws == 1 || lfSk ws == 3 || lfSinc ws != 0 || lfWth ws != 0), 0x0302, 0),
    (lfIxr ws != 0 && !lopIndexed lop, 0x020C, 0)]
    ++ s.unitFaults b u ws (g 22) (g 27) (k.g (fld (lfWord ws 3) 0 5)).toNat (k.g (lfIxr ws)).toNat

/-- The queue entry that a core makes of a long form (R79). -/
def State.entryOf (s : State) (c : CoreId) (ws : List Word) : QEntry :=
  let k := s.core (coreKey c)
  { words := ws, bank := (s.face (coreBench c) (coreUnit c)).bank, pc := k.pc, ga := k.g (fld (lfWord ws 2) 22 5),
    gb := k.g (fld (lfWord ws 2) 27 5), gc := k.g (fld (lfWord ws 3) 0 5), ixr := k.g (lfIxr ws), strand := coreStrand c,
    stamp := (s.bench (coreBench c)).issued }

/-- The last stationary load that the control core issued, for each Slab and bank of its mask (R131): its FMTA plus 1. -/
def trackLoad (f : Face) (ws : List Word) : Face :=
  if lfLop ws = 0x03 then
    { f with loadTrack := (maskSlabs (fld (lfImm ws) 0 4)).foldl (fun m k =>
        smSet (fun _ => 0) m (2 * k + fld (lfImm ws) 16 1) (fld (lfWord ws 3) 5 4 + 1)) f.loadTrack }
  else f

/-- A long form at the core's program counter: its faults, then `eff`, which is given the words.
DESIGN CHOICE: log entry 2. DEDUCED: log entry 28. -/
def State.issueLong (s : State) (c : CoreId) (mine : Nat → List Word → Bool) (eff : List Word → State) : State :=
  let ws := s.fetchLong c
  let pc := (s.core (coreKey c)).pc
  if !(s.running c && isLong (s.fetch c 0) && mine (lfLop ws) ws) then s
  else if pc % 16 ≠ 0 then s.precise c 0x0203 0 true
  else if 0x20000 ≤ pc + 16 then s.precise c 0x0204 0 true
  else match (s.longFaults c ws).find? (·.1) with
    | some (_, code, val) => s.precise c code val true
    | none => eff ws

/-- A long form enters its queue (R79): the core stalls while the queue is full. -/
def State.enqueue (s : State) (c : CoreId) (q : QueueId) (mine : Nat → List Word → Bool) : State :=
  s.issueLong c mine (fun ws =>
    let b := coreBench c
    let u := coreUnit c
    let e := s.entryOf c ws
    if 16 ≤ ((s.face b u).queue q).length then s
    else ((s.updFace b u (fun f => trackLoad (f.setQueue q (f.queue q ++ [e])) ws)).updBench b (fun x => { x with issued := x.issued + 1 })).setPc c
      (e.pc + 16))

/-- A long form of one opcode. -/
def isLop (n : Nat) : Nat → List Word → Bool := fun lop _ => lop == n

/-- A WGATHER of one mode; mode 3, which is reserved, is taken with mode 0. -/
def isGather (m : Nat) : Nat → List Word → Bool := fun lop ws => lop == 0x0C && (lfImm ws % 4 == m || (m == 0 && lfImm ws % 4 == 3))

/-- MMA issues (R124, R131). -/
def execMma (c : CoreId) (s : State) : Host.Outcome State Fault Refusal := .next (s.enqueue c .slab (isLop 0x01))

/-- MMA_ACC issues (R124, R131). -/
def execMmaAcc (c : CoreId) (s : State) : Host.Outcome State Fault Refusal := .next (s.enqueue c .slab (isLop 0x02))

/-- TILE_LOAD_STATIONARY issues (R121, R131). -/
def execTileLoadStationary (c : CoreId) (s : State) : Host.Outcome State Fault Refusal := .next (s.enqueue c .slab (isLop 0x03))

/-- TILE_DRAIN issues (R126, R131, R167). -/
def execTileDrain (c : CoreId) (s : State) : Host.Outcome State Fault Refusal := .next (s.enqueue c .slab (isLop 0x04))

/-- CHUTE_MV issues (R138, R142). -/
def execChuteMv (c : CoreId) (s : State) : Host.Outcome State Fault Refusal := .next (s.enqueue c .chute (isLop 0x05))

/-- HAUL issues (R202); a reserved long opcode is taken here and raises 0x0201. -/
def execHaul (c : CoreId) (s : State) : Host.Outcome State Fault Refusal :=
  .next (s.enqueue c .hauler (fun lop _ => lop == 0x08 || reservedLop lop))

/-- WGATHER in mode ROWS issues (R175, R179). -/
def execWgatherRows (c : CoreId) (s : State) : Host.Outcome State Fault Refusal := .next (s.enqueue c .weevil (isGather 0))

/-- WGATHER in mode EXPAND issues (R175, R179). -/
def execWgatherExpand (c : CoreId) (s : State) : Host.Outcome State Fault Refusal := .next (s.enqueue c .weevil (isGather 1))

/-- WGATHER in mode PACK issues (R175, R179). -/
def execWgatherPack (c : CoreId) (s : State) : Host.Outcome State Fault Refusal := .next (s.enqueue c .weevil (isGather 2))

/-- WMERGE issues (R176, R179). -/
def execWmerge (c : CoreId) (s : State) : Host.Outcome State Fault Refusal := .next (s.enqueue c .weevil (isLop 0x0D))

/-- WSEGRED issues (R177, R179). -/
def execWsegred (c : CoreId) (s : State) : Host.Outcome State Fault Refusal := .next (s.enqueue c .weevil (isLop 0x0E))

/-- WROUTE issues (R187, R198). -/
def execWroute (c : CoreId) (s : State) : Host.Outcome State Fault Refusal := .next (s.enqueue c .weevil (isLop 0x0F))

/-- COLL issues (R79, R296). -/
def execColl (c : CoreId) (s : State) : Host.Outcome State Fault Refusal := .next (s.enqueue c .coll (isLop 0x10))

/-- TASK_BEGIN issues (R320). -/
def execTaskBegin (c : CoreId) (s : State) : Host.Outcome State Fault Refusal := .next (s.enqueue c .task (isLop 0x14))

/-- TASK_END of any operation issues (R320). -/
def execTaskEnd (c : CoreId) (s : State) : Host.Outcome State Fault Refusal := .next (s.enqueue c .task (isLop 0x15))

/-- LSYNC (R79): the core holds it until its WAIT is satisfied. -/
def execLsync (c : CoreId) (s : State) : Host.Outcome State Fault Refusal :=
  .next (s.issueLong c (isLop 0x18) (fun _ => s.updCore (coreKey c) (fun k => { k with holding := true })))

end Sys2Proof.Machine
end

