-- ==== Sys2Proof/Machine/Starts.lean ====
section
/-!
DEFINITION. What the units of a Face do between issue and SIGNAL: the starts and completions of the Slab queue (R120 to R135), the
tile queue and the rings (R144 to R149), token queues with no room (R106, R110), bank swaps (R89), stall reports (R114), and
the Slab self-test (R135).
-/

namespace Sys2Proof.Machine

/-- A queue's head taken off, with its token (R104). -/
def State.takeHead (s : State) (b u : Nat) (q : QueueId) (e : QEntry) : State :=
  (s.takeWait b u e.words).updFace b u (fun f => f.setQueue q ((f.queue q).drop 1))

/-! ### The Slab queue -/

/-- The Slab mask of an entry. -/
def slabMask (e : QEntry) : List Nat := maskSlabs (fld (lfImm e.words) 0 4)

/-- The bank that an entry names: SB of a load, or of a stream (R123). -/
def entryBank (e : QEntry) : Nat := if lfLop e.words = 0x03 then fld (lfImm e.words) 16 1 else fld (lfImm e.words) 4 1

/-- A started operation names one of the Slabs. -/
def RunOp.names (op : RunOp) (ks : List Nat) : Bool := op.slabs.any (fun k => ks.contains k)

/-- The start conditions of R127 that stand in state, and quiesce (R132). -/
def State.slabReady (s : State) (b u : Nat) (e : QEntry) : Bool :=
  let f := s.face b u
  let ks := slabMask e
  let imm := lfImm e.words
  let quiet := ks.all (fun k => !(s.en b (0x20 + 4 * u + k) && s.qsc b (0x20 + 4 * u + k)))
  quiet && match lfLop e.words with
  | 0x03 => !f.loads.any (fun l => l.names ks) && !f.streams.any (fun l => l.names ks && entryBank l.entry == entryBank e)
  | 0x04 => f.drain.isNone && !(nbit imm 7 && (f.sieveD.isSome || s.qsc b (0x58 + u)))
  | _ =>
    let lo := e.gc.toNat
    let hi := lo + e.gb.toNat
    !f.loads.any (fun l => l.names ks && entryBank l.entry == entryBank e)
      && !(match f.drain with | some d => d.names ks && decide (d.lo < hi) && decide (lo < d.hi) | none => false)

/-- A plain started operation of an entry. -/
def runOp (e : QEntry) (slabs : List Nat) : RunOp :=
  { entry := e, writes := [], rsig := none, slabs := slabs, lo := 0, hi := 0, tiles := [], failed := false, ended := false, tally := [],
    src := none }

/-- The masked Slabs whose page is disabled stop an operation with 0x040C; the others go on (R132). -/
def State.slabsOff (s : State) (b u : Nat) (e : QEntry) : List Nat × Bool × State :=
  let ks := slabMask e
  let off := ks.any (s.slabOff b u)
  (ks.filter (fun k => !s.slabOff b u k), off, if off then s.imprecise b u e 0x040C 0 else s)

/-- The Face-store places that a load or a streaming operation reads (R121, R131). -/
def slabReads (b u : Nat) (e : QEntry) : Nat → Bool :=
  inRange (fsLoc b u e.ga.toNat) (if lfLop e.words = 0x03 then loadExtent (lfFmtA e.words) e.gb.toNat (lfImm e.words)
    else (e.gb.toNat + 7) * linePitch (lfFmtB e.words))

/-- The line or source row, by 32 bytes, that holds a place of those (R120, R121): each is read once. -/
def slabLine (b u : Nat) (e : QEntry) (k : Nat) : Nat :=
  (k - fsLoc b u e.ga.toNat) / (if lfLop e.words = 0x03 then 32 else linePitch (lfFmtB e.words))

/-- A stationary load starts (R121, R122). DEDUCED: log entry 34. -/
def State.startLoad (s : State) (b u : Nat) (e : QEntry) : State :=
  let o := s.slabsOff b u e
  (o.2.2.updFace b u (fun f => { f with loads := f.loads ++ [{ runOp e o.1 with failed := o.2.1, src := some (s.fresh, s.seenCells b u (slabReads b u e)) }] })).draw

/-- The Slabs of a load receive their rows (R121, R122). DEDUCED: log entry 34. -/
def State.readLoad (s : State) (b u : Nat) (op : RunOp) : State :=
  match op.src with
  | none => s
  | some x =>
    let e := op.entry
    let imm := lfImm e.words
    let v := s.lateReads b u (slabReads b u e) (slabLine b u e) x.1 x.2
    (splitRows (s.cols b u) (slabMask e) (tlNrt imm) 0).foldl (fun t p => if op.slabs.contains p.1 then
      t.updSlab b (4 * u + p.1) (fun y => y.setBank (entryBank e)
        (v.loadBank b u e.ga.toNat e.gb.toNat imm (lfFmtA e.words) (fld (lfWord e.words 3) 5 4) p.2.1 p.2.2)) else t) s

/-- The Slabs of a streaming operation receive its accumulator words (R122, R124); the result keeps its flags.
DEDUCED: log entry 34. -/
def State.readStream (s : State) (b u : Nat) (op : RunOp) : State × RunOp :=
  match op.src with
  | none => (s, op)
  | some x =>
    let e := op.entry
    let fb := lfFmtB e.words
    let p := (pairRate (lfFmtA e.words) fb).getD 1
    let s0 := e.gc.toNat
    let v := e.gb.toNat
    let mem := s.lateReads b u (slabReads b u e) (slabLine b u e) x.1 x.2
    let r := op.slabs.foldl (fun (t : State × AFlags) k =>
      let sl := s.slab b (4 * u + k)
      let bank := sl.bank (entryBank e)
      let w := mem.streamSlab b u (fsLoc b u e.ga.toNat) v s0 fb p (lfLop e.words == 0x02) sl bank
      (t.1.updSlab b (4 * u + k) (fun y => { y with acc := setAcc y.acc w.1, live := setLive y.live s0 v bank.rows }), t.2.or w.2)) (s, .none)
    (r.1, { op with src := none, tally := [r.2.mask] })

/-- The running streaming operations on some of the Slabs have made their accumulator writes, oldest first: they come before
what a drain, or a read of bad parity, takes of the accumulator (R127). -/
def State.finishStreams (s : State) (b u : Nat) (ks : List Nat) : State :=
  let r := (s.face b u).streams.foldl (fun (t : State × List RunOp) op =>
    let x := if op.names ks then t.1.readStream b u op else (t.1, op)
    (x.1, t.2 ++ [x.2])) (s, [])
  r.1.updFace b u (fun f => { f with streams := r.2 })

/-- A streaming operation starts (R122, R124); SLB_STRM counts its V port advances on each Slab that takes part (R136).
DEDUCED: log entry 34. DESIGN CHOICE: log entry 112. -/
def State.startStream (s : State) (b u : Nat) (e : QEntry) (par : List ParityHit) : State :=
  let o := s.slabsOff b u e
  let s0 := e.gc.toNat
  let v := e.gb.toNat
  let hits := if lfLop e.words = 0x02 then par.filter (fun h => o.1.contains h.slab.val && decide (s0 ≤ h.slot.toNat) && decide (h.slot.toNat < s0 + v)
    && decide (h.col.toNat < ((s.slab b (4 * u + h.slab.val)).bank (entryBank e)).rows)) else []
  let s1 := (if hits.isEmpty then o.2.2 else o.2.2.finishStreams b u o.1).parityErrors b u hits
  let raises := s.parityRaises b u hits
  let s1 := if raises then s1.imprecise b u e 0x040B 0 else s1
  let s2 := o.1.foldl (fun t k => t.bump b (0x20 + 4 * u + k) Off.slbStrm v) s1
  let op := { runOp e o.1 with lo := s0, hi := s0 + v, failed := o.2.1 || raises, src := some (s.fresh, s.seenCells b u (slabReads b u e)) }
  (s2.updFace b u (fun f => { f with streams := f.streams ++ [op] })).draw

/-- A drain starts (R126, R135, R143, R167); NF is set for every word of bad parity that it reads, of a discarded row too.
DESIGN CHOICE: log entry 112. -/
def State.startDrain (s : State) (b u : Nat) (e : QEntry) (par : List ParityHit) : State :=
  let s := s.finishStreams b u (slabMask e)
  let imm := lfImm e.words
  let o := s.slabsOff b u e
  let mask := fld imm 0 4
  let ord := fld imm 4 2
  let slots := 32 * (fld imm 15 4 + 1)
  let s0 := e.gc.toNat
  let hits := par.filter (fun h => o.1.contains h.slab.val && decide (s0 ≤ h.slot.toNat) && decide (h.slot.toNat < s0 + slots)
    && decide (h.col.toNat < s.cols b u h.slab.val))
  let bad := fun (k c i : Nat) => hits.any (fun h => h.slab.val == k && h.slot.toNat == i && h.col.toNat == c)
  let s1 := o.2.2.parityErrors b u hits
  let raises := s.parityRaises b u hits
  let s1 := if raises then s1.imprecise b u e 0x040B 0 else s1
  let nf := AFlags.mask ⟨!hits.isEmpty, false, false⟩
  let op := { runOp e o.1 with lo := s0, hi := s0 + slots, failed := o.2.1 || raises, tally := [nf] }
  if nbit imm 6 then
    s1.updFace b u (fun f => { f with drain := some { op with tiles := s.drainEntries b u mask ord s0 slots o.1 bad } })
  else if nbit imm 7 then
    if !s.en b (0x58 + u) then (s1.sivFault b u 0 0x0616 e.ga.toNat).imprecise b u e 0x0616 0
    else match s1.openD b u e.ga.toNat (s.sparseElems b u mask ord s0 slots o.1 bad) with
    | some s2 => s2.updFace b u (fun f => { f with drain := some op })
    | none => (s1.sivFault b u 0 0x0614 e.ga.toNat).imprecise b u e 0x0614 0
  else s1.updFace b u (fun f => { f with drain := some { op with
    writes := s.drainStores b u mask ord e.ga.toNat (64 * fld imm 8 7) s0 slots o.1 bad } })

/-- The head of the Slab queue starts (R127). -/
def State.startSlabHead (s : State) (b u : Nat) (par : List ParityHit) : State :=
  match (s.face b u).qSlab with
  | [] => s
  | e :: _ =>
    if !s.waitOk b u e.words || !s.slabReady b u e then s
    else
      let s := s.takeHead b u .slab e
      match lfLop e.words with
      | 0x03 => s.startLoad b u e
      | 0x04 => s.startDrain b u e par
      | _ => s.startStream b u e par

/-- The Chute can start its queue's head (R141): every operation started before streams on or is done, none is held for room. -/
def State.chuteReady (s : State) (b u : Nat) (e : QEntry) : Bool :=
  s.waitOk b u e.words && (s.face b u).chute.all (!·.ended) && s.en b (chuPage u) && !s.qsc b (chuPage u)

/-- The Weevil can start its queue's head (R180). -/
def State.weevilReady (s : State) (b u : Nat) (e : QEntry) : Bool :=
  s.waitOk b u e.words && (s.face b u).weevil.isNone && s.en b (wevPage u) && !s.qsc b (wevPage u)

/-- The head of the Chute queue starts (R141). DEDUCED: log entries 34, 45. -/
def State.startChuteHead (s : State) (b u : Nat) : State :=
  match (s.face b u).qChute with
  | [] => s
  | e :: _ =>
    if !s.chuteReady b u e then s
    else (s.takeHead b u .chute e).startChute b u e

/-- The head of the Weevil queue starts (R180, R183). DEDUCED: log entries 34, 45. -/
def State.startWeevilHead (s : State) (b u : Nat) : State :=
  match (s.face b u).qWeevil with
  | [] => s
  | e :: _ =>
    if !s.weevilReady b u e then s
    else
      let t := s.takeHead b u .weevil e
      if lfLop e.words = 0x0F then t.startRoute b u e else t.startWeevil b u e s

/-! ### Completions -/

/-- A list with the element at a position replaced. -/
def setAt {α : Type} (l : List α) (k : Nat) (x : α) : List α := l.take k ++ [x] ++ l.drop (k + 1)

/-- A list without the element at a position. -/
def dropAt {α : Type} (l : List α) (k : Nat) : List α := l.take k ++ l.drop (k + 1)

/-- An operation that has done its work gives its SIGNAL, unless it stopped with an exception; `done` frees its unit and `keep`
keeps it while a full token queue holds the SIGNAL (R82, R106). -/
def State.settle (s : State) (b u : Nat) (op : RunOp) (done keep : State → State) : State :=
  if op.failed then done s
  else if s.signalRoom b u op.entry.words then done (s.giveSignal b u op.entry.words)
  else keep s

/-- SLAB_LOAD_COMPLETE (R127): load `k` of those running has made its last write. DEDUCED: log entry 7. -/
def execSlabLoadComplete (u : UnitId) (k : Nat) (s : State) : Host.Outcome State Fault Refusal :=
  let b := u.bench.val
  let f := u.unit.val
  .next (match (s.face b f).loads[k]? with
    | none => s
    | some op =>
      if op.ended then s
      else
        let n := entryBank op.entry
        let s := op.slabs.foldl (fun t i => t.updSlab b (4 * f + i) (fun x => x.setBank n { x.bank n with valid := true })) (s.readLoad b f op)
        s.settle b f op (fun t => t.updFace b f (fun x => { x with loads := dropAt x.loads k }))
          (fun t => t.updFace b f (fun x => { x with loads := setAt x.loads k { op with ended := true, src := none } })))

/-- SLAB_STREAM_COMPLETE (R127): the oldest streaming operation has made its last accumulator write. -/
def execSlabStreamComplete (u : UnitId) (s : State) : Host.Outcome State Fault Refusal :=
  let b := u.bench.val
  let f := u.unit.val
  .next (match (s.face b f).streams with
    | [] => s
    | op :: _ =>
      if op.ended then s
      else
        let r := s.readStream b f op
        let op := r.2
        let s := r.1.addAFlags b f (aflagsOf (op.tally.headD 0))
        s.settle b f op (fun t => t.updFace b f (fun x => { x with streams := x.streams.drop 1 }))
          (fun t => t.updFace b f (fun x => { x with streams := setAt x.streams 0 { op with ended := true } })))

/-- TILE_ENTER_QUEUE (R126, R127, R144): the drain's next tile takes a free entry of the eight. -/
def execTileEnterQueue (u : UnitId) (s : State) : Host.Outcome State Fault Refusal :=
  let b := u.bench.val
  let f := u.unit.val
  .next (match (s.face b f).drain with
    | none => s
    | some op =>
      match op.tiles with
      | [] => s
      | t :: ts =>
        if 8 ≤ (s.face b f).tileQ.length then s
        else s.updFace b f (fun x => { x with tileQ := x.tileQ ++ [t], drain := some { op with tiles := ts } }))

/-- TILE_DRAIN_COMPLETE (R126, R127, R171): the stores are visible, the tensor is closed, or the VE has released the last entry. -/
def execTileDrainComplete (u : UnitId) (s : State) : Host.Outcome State Fault Refusal :=
  let b := u.bench.val
  let f := u.unit.val
  .next (match (s.face b f).drain with
    | none => s
    | some op =>
      let imm := lfImm op.entry.words
      if op.ended || (nbit imm 6 && !(op.tiles.isEmpty && (s.face b f).tileQ.isEmpty)) || (nbit imm 7 && (s.face b f).sieveD.isSome) then s
      else if s.storeStalls b f op.writes then s.noteStall b
      else ((s.storesAs b f op.writes).addAFlags b f (aflagsOf (op.tally.headD 0))).settle b f op
        (fun t => t.updFace b f (fun x => { x with drain := none }))
        (fun t => t.updFace b f (fun x => { x with drain := some { op with ended := true, writes := [] } })))

/-! ### Rings (R147 to R149) -/

/-- RING_SLOT_COMPLETE (R149): the oldest full slot's eighth write is visible, and its signal is given; a slot of a sparse output
ring also passes to channel V of the Sieve (R168), and waits while that channel closes its last tensor.
DEDUCED: log entry 40. -/
def execRingSlotComplete (u : UnitId) (r : RingSel) (s : State) : Host.Outcome State Fault Refusal :=
  let b := u.bench.val
  let f := u.unit.val
  let p := vecPage f
  let x := s.face b f
  .next (match r with
    | .save =>
      if x.sFull = 0 then s
      else (s.updFace b f (fun y => { y with sFull := y.sFull - 1 })).ringSignal b f (s.reg b p Off.vecSsig)
    | .output =>
      let sparse := wbit (s.reg b p Off.vecOfmt) 7 && s.sivOn b f
      if x.oFull = 0 || (sparse && (match x.sieveV with | some t => t.closing | none => false)) then s
      else
        let ring := ringOf (s.reg b p Off.vecOring)
        let slot := (x.oPos / 8 - x.oFull) % ring.2
        let s1 := (s.updFace b f (fun y => { y with oFull := y.oFull - 1 })).ringSignal b f (s.reg b p Off.vecOsig)
        if sparse then s.orStall (s1.slotToV b f (ring.1 + slot * (256 * (s.outFmt b f).1.bits))) b f else s1)

/-- RING_SIGNAL_DEFERRED (R149): the ring signal that waits first is given once its queue has room. -/
def execRingSignalDeferred (u : UnitId) (s : State) : Host.Outcome State Fault Refusal :=
  let b := u.bench.val
  let f := u.unit.val
  .next (match (s.face b f).deferred with
    | [] => s
    | w :: ws => if s.ringBlocked b f w then s else (s.updFace b f (fun x => { x with deferred := ws })).applyRing b f w)

/-! ### Remote signals at their target (R110, R111) -/

/-- An earlier remote signal of the same unit to the same Face is still on its way (R110). -/
def State.rsigAhead (s : State) (p : Packet) : Bool :=
  (s.fabric.takeWhile (· != p)).any (fun q => q.ptype == 0x07 && q.sdie == p.sdie && q.tag == p.tag && q.ddie == p.ddie
    && wfld (w32 q.word1.toNat) 5 3 == wfld (w32 p.word1.toNat) 5 3)

/-- RSIG (R110, R111, R280): a remote-signal packet reaches its Face, and waits behind those that wait for room; those of one unit
arrive in the order sent. A fenced Bench, or one without its uncore domain, discards it: the sending Bench records 0x030A, or
STS 3 answers where an answer is asked for. -/
def execRsig (p : Packet) (s : State) : Host.Outcome State Fault Refusal :=
  let b := p.ddie.toNat
  let w := w32 p.word1.toNat
  let f := wfld w 5 3
  .next (if p.ptype ≠ 0x07 || b ≥ 16 || s.rsigAhead p then s
    else match s.takePacket p with
    | none => s
    | some s =>
      if s.deaf b then
        if p.aux.getLsbD 0 then s.send (s.wrackTo p 3)
        else if p.sdie.toNat < 16 then s.rsigDiscard p.sdie.toNat p.tag.toNat 0x030A w else s
      else if (s.face b f).inbox ≠ [] || s.remoteBlocked b f w then s.updFace b f (fun x => { x with inbox := x.inbox ++ [p] })
      else s.settleRemote b f w p)

/-- REMOTE_SIGNAL_ROOM_APPLY (R110): the remote signal that waits first is applied once its queue has room. -/
def execRemoteSignalRoomApply (u : UnitId) (s : State) : Host.Outcome State Fault Refusal :=
  let b := u.bench.val
  let f := u.unit.val
  .next (match (s.face b f).inbox with
    | [] => s
    | p :: ps =>
      let w := w32 p.word1.toNat
      if s.remoteBlocked b f w then s else (s.updFace b f (fun x => { x with inbox := ps })).settleRemote b f w p)

/-! ### Bank swaps (R89) -/

/-- A Hauler holds a started descriptor whose destination range lies in instruction bank `bank` of a unit (R89). -/
def State.writesBank (s : State) (b u bank : Nat) : Bool :=
  (s.bench b).jobs.any (fun j => match j.2 with
    | some j => j.into == some (2 * u + bank)
    | none => false)

/-- BANK_SWAP_COMMIT (R89): once nothing writes the incoming bank, the banks swap and the core goes on; after a resume it parks
again at once where an exception or a quiesce request has come meanwhile (R91). DEDUCED: log entry 25. -/
def execBankSwapCommit (c : CoreId) (s : State) : Host.Outcome State Fault Refusal :=
  let b := coreBench c
  let u := coreUnit c
  let f := s.face b u
  .next (match f.swap with
    | none => s
    | some q =>
      if s.writesBank b u (1 - f.bank.toNat) then s
      else
        let clear := q.resume && !s.excValid b u
        let quiet := s.qsc b (ctlPage u)
        let s := s.updFace b u (fun f => { f with swap := none, bank := !f.bank, parked := if clear && !quiet then false else f.parked,
                                                  cause := if clear && quiet then 2 else f.cause })
        let s := if q.resume then s else s.updCore q.core (fun k => { k with pc := q.pc })
        if u = 6 then s else s.raise b (ctlPage u) 0x80000)

/-! ### Stall reports (R114) -/

/-- The waiters of a Face as BEN_DEP_WAITn shows them. DEDUCED: log entry 118. -/
def State.waiters (s : State) (b u : Nat) : Nat :=
  let f := s.face b u
  maskOf ((List.range 6).filter (fun i => match (f.queue (allQueues.getD i .slab)).head? with
    | some e => !s.waitOk b u e.words
    | none => false)) + (if (s.core (mainCore b u)).holding then 64 else 0)

/-- The task unit of a Face runs an operation: a GUARD without its verdict, an END that waits, or one whose SIGNAL waits for room. -/
def State.taskBusy (s : State) (b u : Nat) : Bool :=
  (s.face b u).taskEnded.isSome || (match (s.bench b).task with
    | some t => t.owner == u && (t.guard.isSome || t.ending.isSome)
    | none => false)

/-- The Bench Hauler runs or holds an entry that the unit handed over: it counts as a running operation of the unit (R201). -/
def State.handedOver (s : State) (b u : Nat) : Bool :=
  (s.bench b).haulQ.any (fun e => e.1 == u) || (s.job b 6).any (fun j => j.issuer == u && j.kick.isNone)

/-- No operation that the Face issued runs or holds its completion (R90, R108, R114, R201). DEDUCED: log entry 117. -/
def State.unitsIdle (s : State) (b u : Nat) : Bool :=
  let f := s.face b u
  f.loads.isEmpty && f.streams.isEmpty && f.drain.isNone && f.chute.isEmpty && f.weevil.isNone && (u == 6 || (s.job b u).isNone)
    && (s.job b (16 + u)).isNone && !s.handedOver b u && !(s.bench b).cru.act.any (fun c => c.unit == u && !c.guard) && !s.taskBusy b u

/-- DEP_STALL (R114): the stall window has passed with no change, the window being on; the Face is reported once.
DEDUCED: log entry 11. -/
def execDepStall (u : UnitId) (s : State) : Host.Outcome State Fault Refusal :=
  let b := u.bench.val
  let f := u.unit.val
  let w := s.waiters b f
  .next (if f = 6 || s.rfld b 0 Off.benDepwd 0 24 = 0 || w = 0 || !s.unitsIdle b f || wbit (s.reg b 0 Off.benDepStall) f then s
    else (((s.setFld b 0 Off.benDepStall f 1 1).setReg b 0 (Off.benDepWait + 4 * f) (w32 w)).raise b 0 0x10000))

/-! ### The Slab self-test and Slab resets (R132, R135) -/

/-- A Slab zeroed: accumulator, banks, live-row counts (R132). -/
def State.zeroSlab (s : State) (b i : Nat) : State := s.updSlab b i (fun _ => Slab.empty)

/-- The load record of a Slab cleared (R131). -/
def State.untrack (s : State) (b i : Nat) : State :=
  s.updFace b (i / 4) (fun f => { f with loadTrack := f.loadTrack.filter (fun e => e.1 / 2 != i % 4) })

/-- A drain that goes on without one of its Slabs (R132): of the Slab's words, those not yet stored are not, and its tiles do not
enter the tile queue. DESIGN CHOICE: log entry 113. -/
def State.dropSlab (s : State) (b u k : Nat) (op : RunOp) : State :=
  let imm := lfImm op.entry.words
  let mask := fld imm 0 4
  let places := (s.drainStores b u mask (fld imm 4 2) op.entry.ga.toNat (64 * fld imm 8 7) op.lo (op.hi - op.lo) [k] (fun _ _ _ => false)).map (·.1)
  let gone := fun (w : Nat × List Byte) => places.contains w.1
  let m := op.slabs.length
  let n := op.tiles.length
  let tiles := (List.range n).filterMap (fun j => if op.slabs.getD (m - 1 - (n - 1 - j) % m) 0 = k then none else op.tiles[j]?)
  let rest := { op with failed := true, slabs := op.slabs.filter (· != k), writes := op.writes.filter (fun w => !gone w),
                        tiles := tiles.dropLast ++ (tiles.getLast?.map (fun t => { t with last := true })).toList }
  (s.storesSome b u (op.writes.filter gone)).updFace b u (fun f => { f with drain := some rest })

/-- Every operation that runs on Slab `i` of a Bench stops with 0x040C, and the other Slabs of its mask finish (R132). -/
def State.stopSlab (s : State) (b i : Nat) : State :=
  let u := i / 4
  let k := i % 4
  let f := s.face b u
  let hit := fun (op : RunOp) => op.slabs.contains k && !op.ended
  let s := ((f.loads ++ f.streams ++ f.drain.toList).filter (fun op => hit op && !op.failed)).foldl (fun s op => s.imprecise b u op.entry 0x040C 0) s
  let mark := fun (op : RunOp) => if hit op then { op with failed := true, slabs := op.slabs.filter (· != k) } else op
  let s := s.updFace b u (fun f => { f with loads := f.loads.map mark, streams := f.streams.map mark })
  match f.drain with
  | some op => if hit op then s.dropSlab b u k op else s
  | none => s

/-- SELF_TEST_DONE (R135): the failing pairs, bypassed ones included, are written and TDONE set. -/
def execSelfTestDone (b : BenchId) (slab : Fin 24) (failing : BitVec 64) (s : State) : Host.Outcome State Fault Refusal :=
  let p := 0x20 + slab.val
  .next (if !wbit (s.reg b p Off.stat) 21 then s
    else ((((s.setFld b p Off.stat 21 1 0).setReg b p Off.slbTfail0 (w32 failing.toNat)).setReg b p Off.slbTfail1
      (w32 (failing.toNat / 2 ^ 32))).raise b p 0x20000))

/-! ### Token queues with no room (R106) -/

/-- A collective taken off the active ones; its slots are free. -/
def State.dropColl (s : State) (b seq : Nat) : State :=
  s.updBench b (fun x => { x with cru := { x.cru with act := x.cru.act.filter (fun c => c.seq != seq) } })

/-- COMPLETION_TOKEN_PUSH (R106): an operation that a full token queue holds pushes its token once there is room, and gives up its
unit: in the Slab queue a load, then a stream, then a drain. DEDUCED: log entry 7. -/
def execCompletionTokenPush (u : UnitId) (q : QueueId) (s : State) : Host.Outcome State Fault Refusal :=
  let b := u.bench.val
  let f := u.unit.val
  let x := s.face b f
  let room := fun (op : RunOp) => op.ended && s.signalRoom b f op.entry.words
  let give := fun (op : RunOp) => s.giveSignal b f op.entry.words
  .next (match q with
    | .slab =>
      match (List.range x.loads.length).find? (fun k => match x.loads[k]? with | some op => room op | none => false) with
      | some k => (match x.loads[k]? with
        | some op => (give op).updFace b f (fun y => { y with loads := dropAt y.loads k })
        | none => s)
      | none =>
        match x.streams, x.drain with
        | op :: _, d =>
          if room op then (give op).updFace b f (fun y => { y with streams := y.streams.drop 1 })
          else (match d with
            | some d => if room d then (give d).updFace b f (fun y => { y with drain := none }) else s
            | none => s)
        | [], some d => if room d then (give d).updFace b f (fun y => { y with drain := none }) else s
        | [], none => s
    | .chute =>
      match x.chute with
      | op :: _ => if room op then (give op).updFace b f (fun y => { y with chute := y.chute.drop 1 }) else s
      | [] => s
    | .weevil =>
      match x.weevil with
      | some op => if room op then (give op).updFace b f (fun y => { y with weevil := none }) else s
      | none => s
    | .hauler =>
      let held := fun (key : Nat) => match s.job b key with
        | some j => j.ended && j.slotHeld && j.issuer == f && j.kick.isNone && s.signalRoom b f j.entry.words
        | none => false
      let free := fun (key : Nat) => match s.job b key with
        | some j => (s.giveSignal b f j.entry.words).setJob b key none
        | none => s
      if held f && f != 6 then free f else if held 6 then free 6 else s
    | .coll =>
      let own := fun (c : Coll) => c.ended && c.unit == f && s.signalRoom b f c.entry.words
      let gal := match s.job b (16 + f) with
        | some j => j.ended && j.slotHeld && s.signalRoom b f j.entry.words
        | none => false
      match s.job b (16 + f), (s.bench b).cru.act.find? own with
      | some j, c =>
        if gal then (s.giveSignal b f j.entry.words).setJob b (16 + f) none
        else (match c with
          | some c => (s.giveSignal b f c.entry.words).dropColl b c.seq
          | none => s)
      | none, some c => (s.giveSignal b f c.entry.words).dropColl b c.seq
      | none, none => s
    | .task =>
      match x.taskEnded with
      | some e => if s.signalRoom b f e.words then (s.giveSignal b f e.words).updFace b f (fun y => { y with taskEnded := none }) else s
      | none => s)

end Sys2Proof.Machine
end

