-- ==== Sys2Proof/Machine/Coll.lean ====
section
/-!
DEFINITION. Group collectives (R292 to R312): descriptor, shards and trees, grants, contributions with tied buffers and thinning, the
combining buffer, delivery, EL7 landing, completion and faults.
-/

namespace Sys2Proof.Machine

/-! ### The descriptor (R295 to R297) -/

/-- KIND. -/
def Coll.kind (c : Coll) : Nat := if c.guard then 1 else cdf c.desc 0 1
/-- FLAGS.DIST; a GUARD's exchange is whole. -/
def Coll.dist (c : Coll) : Bool := c.guard || nbit (cdf c.desc 1 1) 0
/-- FLAGS.THIN. -/
def Coll.thin (c : Coll) : Bool := !c.guard && nbit (cdf c.desc 1 1) 1
/-- The entries that a thinned block keeps: 256 >> TK. -/
def Coll.keep (c : Coll) : Nat := 256 / 2 ^ cdf c.desc 2 1
/-- ROOT. -/
def Coll.root (c : Coll) : Nat := cdf c.desc 3 1
/-- N. -/
def Coll.n (c : Coll) : Nat := if c.guard then 1 else cdf c.desc 8 4
/-- FMTA. -/
def Coll.fmt (c : Coll) : Fmt := if c.guard then .fp32 else lfFmtA c.entry.words
/-- The element's width in bytes. -/
def Coll.size (c : Coll) : Nat := c.fmt.bits / 8
/-- G. -/
def Coll.g (c : Coll) : Nat := popCount 16 c.memb
/-- The space of DST: 0 store, 1 virtual, 2 Molt. -/
def Coll.dstSpace (c : Coll) : Nat := cdf c.desc 0x18 8 / 2 ^ 62
/-- The address of DST. -/
def Coll.dst (c : Coll) : Nat := cdf c.desc 0x18 8 % 2 ^ 62
/-- SRC is a virtual address. -/
def Coll.srcVirt (c : Coll) : Bool := nbit (cdf c.desc 0x10 8) 63
/-- The address of SRC. -/
def Coll.src (c : Coll) : Nat := cdf c.desc 0x10 8 % 2 ^ 63
/-- The members of a group, in rank order. -/
def Coll.members (c : Coll) : List Nat := bitList 16 c.memb
/-- The Bench of a rank. -/
def Coll.benchOf (c : Coll) (r : Nat) : Nat := c.members.getD r 0

/-- CE: the elements of a chunk (R297). -/
def Coll.ce (c : Coll) : Nat := if c.thin then 4096 else 4096 / max 1 c.fmt.bits

/-- The first element and the length of tree `r`'s stream (R297): its shard, or for BCAST all of rank ROOT's elements. -/
def Coll.shard (c : Coll) (r : Nat) : Nat × Nat :=
  if c.kind = 3 then (0, if r = c.root then c.n else 0)
  else
    let s := c.ce * ceilDiv c.n (max 1 (c.g * c.ce))
    (r * s, min c.n ((r + 1) * s) - r * s)

/-- The chunks of a tree. -/
def Coll.chunks (c : Coll) (r : Nat) : Nat := ceilDiv (c.shard r).2 (max 1 c.ce)

/-- The first element and the element count of a chunk. -/
def Coll.span (c : Coll) (r k : Nat) : Nat × Nat := ((c.shard r).1 + k * c.ce, min c.ce ((c.shard r).2 - k * c.ce))

/-- The trees that a collective uses (R299). DEDUCED: log entry 70. -/
def Coll.trees (c : Coll) : List Nat := if c.kind = 3 then [c.root] else List.range c.g

/-- The key of a chunk. -/
def chunkKey (r k : Nat) : Nat := r * 2 ^ 32 + k

/-- The children of a tree at this member. -/
def Coll.kidsOf (c : Coll) (r : Nat) : List Nat := smGet (fun _ => []) c.kids r
/-- The parent of a tree at this member. -/
def Coll.parentOf (c : Coll) (r : Nat) : Option Nat :=
  let p := smGet (fun _ => 0) c.parent r
  if p = 0 then none else some (p - 1)
/-- The grant received from a neighbour for a tree. -/
def Coll.grant (c : Coll) (r peer : Nat) : Nat := smGet (fun _ => 0) c.win (r * 32 + peer)
/-- The slots that a collective takes (R301). -/
def Coll.slots (c : Coll) : Nat := 512 * c.trees.countP (fun r => c.kidsOf r != [])

/-! ### The engine's state -/

/-- The active collective of a SEQ. -/
def State.coll (s : State) (b seq : Nat) : Option Coll := (s.bench b).cru.act.find? (fun c => c.seq == seq)

/-- An active collective replaced. -/
def State.setColl (s : State) (b : Nat) (c : Coll) : State :=
  s.updBench b (fun x => { x with cru := { x.cru with act := x.cru.act.map (fun y => if y.seq = c.seq then c else y) } })

/-- CRU_SLOTS.INUSE. -/
def State.slotsInUse (s : State) (b : Nat) : Nat := (s.bench b).cru.act.foldl (fun n c => n + c.slots) 0

/-- Word 1 of a reduction packet (R305). -/
def collWord (c : Coll) (tree chunk : Nat) (sparse : Bool) (lastb : Nat) : Nat :=
  chunk + tree * 2 ^ 32 + c.rank * 2 ^ 36 + c.seq % 65536 * 2 ^ 40 + sparse.toNat * 2 ^ 56 + lastb * 2 ^ 57

/-- A reduction packet sent. -/
def State.sendColl (s : State) (b dst ty : Nat) (c : Coll) (tree chunk : Nat) (sparse : Bool) (data : List Byte) : State :=
  s.send (s.packet b dst ty (if ty = 0x11 || ty = 0x14 then 1 else 0) 0 0 0 (collWord c tree chunk sparse (data.length % 64)) (flits data))

/-- A chunk sent in packets of at most eight data flits (R305, R307). DEDUCED: log entry 71. -/
def State.sendChunk (s : State) (b dst ty : Nat) (c : Coll) (tree chunk : Nat) (sparse : Bool) (data : List Byte) : State :=
  (chunksOf 512 (data.length / 512 + 1) data).foldl (fun s x => s.sendColl b dst ty c tree chunk sparse x) s

/-- The digest of R294, in the one data flit of a grant: MEMB, EL7, KIND, FLAGS, TK, ROOT, N, FMTA.
DESIGN CHOICE: log entry 69. -/
def Coll.digest (c : Coll) : List Byte :=
  padTo 64 0 (leBytes 2 c.memb ++ leBytes 1 c.el7.toNat ++ leBytes 1 c.kind ++ leBytes 1 (if c.guard then 1 else cdf c.desc 1 1)
    ++ leBytes 1 (if c.guard then 0 else cdf c.desc 2 1) ++ leBytes 1 (if c.guard then 0 else c.root) ++ leBytes 4 c.n
    ++ leBytes 1 (if c.guard then 0 else fld (lfWord c.entry.words 3) 5 4))

/-- A grant sent (R300). DESIGN CHOICE: log entry 69. -/
def State.sendGrant (s : State) (b dst : Nat) (c : Coll) (tree n : Nat) : State := s.sendColl b dst 0x11 c tree n false c.digest

/-! ### Faults (R310) -/

/-- CRU_FAULT with its SEQ, the status and the interrupt of an aborted collective. -/
def State.cruFault (s : State) (b seq code : Nat) : State :=
  let first := !wbit (s.reg b 0x88 Off.cruFault) 31
  let s := s.recordFirst b 0x88 Off.cruFault code
  let s := if first then s.setReg b 0x88 Off.cruFaultSeq (w32 seq) else s
  (s.setFlt b 0x88).raise b 0x88 0x20000

/-- A GUARD's exchange has ended (R325): with the sum's verdict, or with a fault; one whose GUARD
was discarded (R102) gives nothing. DEDUCED: log entry 72. -/
def State.guardKnown (s : State) (b : Nat) (e : QEntry) (unclean faulted : Bool) : State :=
  s.updBench b (fun x => { x with task := x.task.map (fun t =>
    if t.guard == some e && !t.resolved then { t with unclean := unclean, resolved := true, faulted := faulted } else t) })

/-- ABORT sent to every other member (R310). DEDUCED: log entry 73. -/
def State.abortGroup (s : State) (b : Nat) (c : Coll) : State :=
  (c.members.filter (· != b)).foldl (fun s m => s.sendColl b m 0x14 c 0 0 false []) s

/-- A missing route is recorded by the fabric manager too (R286, R291). -/
def State.noteRoute (s : State) (b code : Nat) : State := if code = 0x0A13 then s.fabricLog b code else s

/-- A collective stops with a code: its slots and chunks are freed, it gives no SIGNAL, and, where this member found the fault,
the others are told. -/
def State.stopColl (s : State) (b : Nat) (c : Coll) (code : Nat) (found : Bool) : State :=
  let s := (s.dropColl b c.seq).updMolt b (fun m => { m with chunks := m.chunks.filter (fun g => g.seq != c.seq) })
  let s := s.cruFault b c.seq code
  let s := if c.guard then s.guardKnown b c.entry true true else s.imprecise b c.unit c.entry code 0
  if found then s.abortGroup b c else s

/-- Every active collective of a Bench that satisfies `p` stops with a code. -/
def State.stopColls (s : State) (b code : Nat) (p : Coll → Bool) : State :=
  ((s.bench b).cru.act.filter (fun c => p c && !c.ended)).foldl (fun s c => s.stopColl b c code true) s

/-- The CRU_ page is reset or disabled, or the Bench reassigned (R310). -/
def State.stopCru (s : State) (b : Nat) : State :=
  (s.stopColls b 0x0B13 (fun _ => true)).updBench b (fun x => { x with cru := ⟨[], []⟩ })

/-! ### Contributions (R306 to R308) -/

/-- Raw elements of a byte list. -/
def rawElems (n : Nat) (bs : List Byte) : List Nat := (chunksOf n bs.length bs).map leNat

/-- Elements read from SRC's space, over the slots of the issuer's class (R230, R303). -/
def State.readSrc (s : State) (b : Nat) (c : Coll) (addr first n : Nat) : Ans :=
  if c.srcVirt then s.vread b 8 (min c.unit 6) (addr + first * c.size) (n * c.size)
  else ⟨0, s.bytesAs b 8 (fsLoc b c.unit (addr + first * c.size)) (n * c.size), s⟩

/-- The elements of a chunk summed in FP32 over SRC and the tied buffers in list order (R308). -/
def State.tiedSum (s : State) (b : Nat) (c : Coll) (first n : Nat) : List Nat → List Num → Ans × List Num
  | [], acc => (⟨0, [], s⟩, acc)
  | a :: as, acc =>
    let r := s.readSrc b c a first n
    if r.code ≠ 0 then (r, acc)
    else
      let vs := (rawElems c.size r.data).map (decodeElem c.fmt)
      r.st.tiedSum b c first n as ((List.zip acc vs).map (fun x => of32 (to32 (Num.add x.1 x.2)).1))

/-- The value rounded to FMTA, to nearest even, without saturation. -/
def Coll.round (c : Coll) (v : Num) : Nat := (convertElem c.fmt .nearest false 0 v).1

/-- The raw values that a member contributes before thinning (R308). -/
def State.ownValues (s : State) (b : Nat) (c : Coll) (first n : Nat) : Ans × List Nat :=
  if c.guard then (⟨0, [], s⟩, [c.own.toNat])
  else
    let r := s.readSrc b c c.src first n
    if r.code ≠ 0 then (r, [])
    else if c.tied = [] then (⟨0, [], r.st⟩, rawElems c.size r.data)
    else
      let t := r.st.tiedSum b c first n c.tied ((rawElems c.size r.data).map (decodeElem c.fmt))
      (t.1, t.2.map c.round)

/-- |v| as the order of R306: NaN above infinity above every finite magnitude. -/
def thinLess (a b : Num) : Bool := if b == .nan then a != .nan else if a == .nan then false else Num.lt a.abs b.abs

/-- The index of the largest |v| not yet chosen, the lowest among equals. -/
def thinPick (vs : List Num) (chosen : List Nat) : Option Nat :=
  (List.range vs.length).foldl (fun best i =>
    if chosen.contains i then best
    else match best with
      | none => some i
      | some j => if thinLess (vs.getD j .nan) (vs.getD i .nan) then some i else best) none

/-- The `k` indices of largest |v| (R306). -/
def thinSelect (vs : List Num) : Nat → List Nat → List Nat
  | 0, chosen => chosen
  | k + 1, chosen => match thinPick vs chosen with
    | some i => thinSelect vs k (i :: chosen)
    | none => chosen

/-- The Crushers' flags: NF and OV (R302). -/
def State.cruFlags (s : State) (b : Nat) (a : AFlags) : State :=
  s.setReg b 0x88 Off.cruAflags (s.reg b 0x88 Off.cruAflags ||| w32 (a.mask % 4))

/-- A member's contribution to a chunk: one value or none for each element (R306, R308), with the residual written; with Crushers, a
selected value that rounds to infinity sets OV (R434 c). -/
def State.contribution (s : State) (b : Nat) (c : Coll) (tree chunk : Nat) : Ans × List (Option Nat) :=
  let sp := c.span tree chunk
  let r := s.ownValues b c sp.1 sp.2
  if r.1.code ≠ 0 then (r.1, [])
  else if !c.thin then (r.1, r.2.map some)
  else
    let ra := cdf c.desc 0x20 8 + 4 * sp.1
    let q := r.1.st.vread b 8 (min c.unit 6) ra (4 * sp.2)
    if q.code ≠ 0 then (q, [])
    else
      let vs := (List.zip r.2 (rawElems 4 q.data)).map (fun x => to32 (Num.add (decodeElem c.fmt x.1) (of32 (w32 x.2))))
      let sel := thinSelect (vs.map (fun v => of32 v.1)) (min c.keep sp.2) []
      let res := (List.range sp.2).flatMap (fun i => leBytes 4 (if sel.contains i then 0 else ((vs.getD i (0, .none)).1).toNat))
      let w := q.st.vwrite b 8 (min c.unit 6) ra res
      let out := fun (i : Nat) => convertElem c.fmt .nearest false 0 (of32 (vs.getD i (0, .none)).1)
      let ovf := !c.el7 && sel.any (fun i => (out i).2.ov)
      if w.code ≠ 0 then (w, [])
      else (⟨0, [], if ovf then w.st.cruFlags b { AFlags.none with ov := true } else w.st⟩,
        (List.range sp.2).map (fun i => if sel.contains i then some (out i).1 else none))

/-! ### Chunks as bytes (R305, R307) -/

/-- A dense chunk; an absent element is +0. -/
def Coll.dense (c : Coll) (vs : List (Option Nat)) : List Byte := vs.flatMap (fun v => leBytes c.size (v.getD 0))

/-- A thinned block: head and entries in ascending index. -/
def Coll.sparse (c : Coll) (chunk : Nat) (vs : List (Option Nat)) : List Byte :=
  let es := (List.range vs.length).filterMap (fun i => (vs.getD i none).map (fun v => (i, v)))
  leBytes 4 chunk ++ leBytes 2 es.length ++ [0, 0] ++ es.flatMap (fun e => leBytes 2 e.1 ++ leBytes c.size e.2)

/-- The bytes of a chunk whose first flits are given. -/
def Coll.wireBytes (c : Coll) (tree chunk : Nat) (sparse : Bool) (bs : List Byte) : Nat :=
  if sparse then 8 + leNat ((bs.drop 4).take 2) * (2 + c.size) else (c.span tree chunk).2 * c.size

/-- The values of a whole chunk. -/
def Coll.ofWire (c : Coll) (tree chunk : Nat) (sparse : Bool) (bs : List Byte) : List (Option Nat) :=
  let n := (c.span tree chunk).2
  if sparse then
    let es := (List.range (leNat ((bs.drop 4).take 2))).map (fun i =>
      let e := (bs.drop (8 + i * (2 + c.size))).take (2 + c.size)
      (leNat (e.take 2), leNat (e.drop 2)))
    (List.range n).map (fun i => (es.find? (fun e => e.1 == i)).map (·.2))
  else (List.range n).map (fun i => some (leNat ((bs.drop (i * c.size)).take c.size)))

/-- Entries of a thinned block. -/
def entryCount (vs : List (Option Nat)) : Nat := vs.countP (·.isSome)

/-! ### The Crushers (R302) -/

/-- One contribution added to a slot. -/
def Coll.addTo (c : Coll) (acc x : List (Option Nat)) : List (Option Nat) × AFlags :=
  (List.range (max acc.length x.length)).foldl (fun (r : List (Option Nat) × AFlags) i =>
    match acc.getD i none, x.getD i none with
    | some a, some y =>
      let u := decodeElem c.fmt a
      let v := decodeElem c.fmt y
      let t := convertElem c.fmt .nearest false 0 (Num.add u v)
      (r.1 ++ [some t.1], r.2.or (opFlags [u, v] t.2))
    | some a, none => (r.1 ++ [some a], r.2)
    | none, y => (r.1 ++ [y], r.2)) ([], .none)

/-- A slot of the combining buffer. -/
def Coll.cslot (c : Coll) (tree chunk : Nat) : CSlot := smGet (fun _ => ⟨0, false, []⟩) c.cslots (chunkKey tree chunk)

/-- A slot of the combining buffer changed. -/
def Coll.setSlot (c : Coll) (tree chunk : Nat) (x : CSlot) : Coll :=
  { c with cslots := smSet (fun _ => ⟨0, false, []⟩) c.cslots (chunkKey tree chunk) x }

/-- A contribution arrives in a slot (R302): the first is stored, a later one is added, and the flags of the adds are set; `own` marks the
member's own. -/
def State.addSlot (s : State) (b : Nat) (c : Coll) (tree chunk : Nat) (own : Bool) (x : List (Option Nat)) : State × Coll :=
  let k := c.cslot tree chunk
  let r := c.addTo k.vals x
  (s.cruFlags b r.2, c.setSlot tree chunk ⟨k.got + (!own).toNat, k.own || own, r.1⟩)

/-! ### Delivery (R296, R304) -/

/-- The FP32 word of a raw element (exact). -/
def Coll.widen (c : Coll) (raw : Nat) : Word := if c.size = 2 then w32 (raw * 65536) else w32 raw

/-- A reduced chunk delivered: to memory at DST, to the Molt, or as the value of a GUARD's exchange. -/
def State.deliver (s : State) (b : Nat) (c : Coll) (tree chunk : Nat) (vs : List (Option Nat)) : Ans :=
  let sp := c.span tree chunk
  if c.guard then ⟨0, [], s.guardKnown b c.entry ((vs.getD 0 none).getD 0 != 0) false⟩
  else if c.dstSpace = 2 then
    let g : GChunk := { ltag := cdf c.desc 0xC 4, first := sp.1, vals := vs.map (fun v => c.widen (v.getD 0)), seq := c.seq, tree := tree, chunk := chunk }
    ⟨0, [], s.updMolt b (fun m => { m with chunks := m.chunks ++ [g] })⟩
  else
    let a := c.dst + sp.1 * c.size
    if c.dstSpace = 1 then s.vwrite b 8 (min c.unit 6) a (c.dense vs) else ⟨0, [], s.storeAs b 8 (fsLoc b c.unit a) (c.dense vs)⟩

/-- A write of the collective unit would overfill the task's held lines (R324). -/
def State.collStalls (s t : State) (b : Nat) : Bool := s.taskState b == 1 && s.inTask b 8 && !t.specFits b (t.bench b).held

/-- What an access of a collective leaves that was not done, `old` the state before it: it waits, or it has failed, which is recorded by
translation where it failed there, and the collective stops (R229, R295, R310). -/
def State.collAccessFault (old : State) (b : Nat) (c : Coll) (a : Ans) : State :=
  if waitCode ≤ a.code then old.noteWait b a.code
  else (a.st.xltFault b (jobSrc (16 + c.unit) c.unit) a.code (leNat a.data)).stopColl b c a.code true

/-! ### Grants (R300) -/

/-- A slot of a tree's stream is freed: the grants rise by 64 each time 64 are freed. `down` is the downward stream. -/
def State.freeTreeSlot (s : State) (b : Nat) (c : Coll) (tree : Nat) (down : Bool) : State × Coll :=
  let k := 2 * tree + down.toNat
  let n := smGet (fun _ => 0) c.freed k + 1
  let c := { c with freed := smSet (fun _ => 0) c.freed k n }
  let peers := if down then (c.parentOf tree).toList else c.kidsOf tree
  (if n % 64 = 0 then peers.foldl (fun s p => s.sendGrant b p c tree (512 + n)) s else s, c)

/-- A slot whose chunk has gone on is still held: the Molt has not taken the chunk, or a copy waits for a child's grant (R301, R304).
DEDUCED: log entry 71. -/
def State.slotBusy (s : State) (b : Nat) (c : Coll) (x : Nat × Nat × Bool) : Bool :=
  (s.bench b).molt.chunks.any (fun g => g.seq == c.seq && g.tree == x.1 && g.chunk == x.2.1)
    || c.forward.any (fun f => f.2.1 == x.1 && f.2.2.1 == x.2.1)

/-- The slots whose chunk nothing holds any more are freed, oldest first (R300, R301). DEDUCED: log entry 71. -/
def State.freeSlots (s : State) (b : Nat) (c : Coll) : State × Coll :=
  (c.busy.filter (fun x => !s.slotBusy b c x)).foldl (fun r x =>
    r.1.freeTreeSlot b { r.2 with busy := r.2.busy.erase x } x.1 x.2.2) (s, c)

/-- A slot's chunk has been delivered, or sent on: the slot is freed, now or when nothing holds its chunk any more. -/
def State.endSlot (s : State) (b : Nat) (c : Coll) (tree chunk : Nat) (down : Bool) : State × Coll :=
  s.freeSlots b { c with busy := c.busy ++ [(tree, chunk, down)] }

/-- Chunks that wait for a child's grant go out. -/
def State.forwardChunks (s : State) (b : Nat) (c : Coll) : State × Coll :=
  let go := fun (x : Nat × Nat × Nat × List Byte) => decide (x.2.2.1 < c.grant x.2.1 x.1)
  let s := (c.forward.filter go).foldl (fun s x => s.sendChunk b x.1 0x12 c x.2.1 x.2.2.1 false x.2.2.2) s
  s.freeSlots b { c with forward := c.forward.filter (fun x => !go x) }

/-- A dense chunk sent down to the children, or kept until their grants reach it. -/
def State.sendDown (s : State) (b : Nat) (c : Coll) (tree chunk : Nat) (bs : List Byte) : State × Coll :=
  s.forwardChunks b { c with forward := c.forward ++ (c.kidsOf tree).map (fun k => (k, tree, chunk, bs)) }

/-! ### Start (R293, R298, R299, R301, R312) -/

/-- The parent of a member in the tree whose root is Bench `root` (R299), by the route tables as they stand. -/
def State.treeParent (s : State) (memb m root : Nat) : Option Nat :=
  let r := s.route m root
  (routePath m (wfld r 0 5) (wfld r 5 5) root).find? (fun x => x != m && nbit memb x)

/-- The trees of a member built (R299). -/
def State.buildTrees (s : State) (b : Nat) (c : Coll) : Coll :=
  c.trees.foldl (fun c r =>
    let root := c.benchOf r
    let ks := (c.members.filter (fun m => m != root && m != b)).filter (fun m => s.treeParent c.memb m root == some b)
    let par := if b = root then 0 else ((s.treeParent c.memb b root).map (· + 1)).getD 0
    { c with parent := smSet (fun _ => 0) c.parent r par, kids := smSet (fun _ => []) c.kids r ks }) c

/-- The bytes of a tied list's entries. -/
def State.tiedList (s : State) (b u : Nat) (e : QEntry) (d : List Byte) : List Nat :=
  if lfIxr e.words = 0 then [] else (List.range (min 16 (cdf d 0x30 1))).map (fun i => s.natAs b (agentOf u) (fsLoc b u (e.ixr.toNat + 8 * i)) 8)

/-- Two ranges of one space meet. -/
def spaceMeet (v w : Bool) (a n b m : Nat) : Bool := v == w && rangesMeet a n b m

/-- The faults of R296 and R312 at the start of a collective, in their order. DEDUCED: log entries 42, 71, 72. -/
def State.collFaults (s : State) (c : Coll) (tied : List Nat) : List (Bool × Nat) :=
  let d := c.desc
  let k := c.kind
  let u := c.unit
  let size := c.size
  let len := c.n * size
  let land := cdf d 0x28 4
  let wl := cdf d 0x2C 2
  let out := fun (a n : Nat) => decide (storeSize u < a + n)
  let el7 := c.el7 && k == 1
  let nt := cdf d 0x30 1
  let ix := lfIxr c.entry.words != 0
  let dv := c.dstSpace == 1
  let mem := c.dstSpace != 2
  [(k == 1 && !(c.fmt == .fp32 || c.fmt == .bf16), 0x0101),
    (c.entry.ga.toNat % 64 != 0 || k == 0 || decide (3 < k) || decide (3 < cdf d 1 1) || (k != 3 && c.root != 0) || c.n == 0 || c.dstSpace == 3
      || decide (15 < cdf d 0x2E 1) || decide (15 < cdf d 0x2F 1) || cdf d 0x31 15 != 0, 0x0B20),
    ((c.thin && k != 1) || decide (6 < cdf d 2 1) || (k == 3 && decide (c.g ≤ c.root)), 0x0B21),
    (!mem && (k != 1 || c.dist != decide (8 ≤ c.g)), 0x0B22),
    (el7 && (!mem || land % 512 != 0 || wl == 0 || decide (256 < wl) || out land (wl * c.g * 512)), 0x0B23),
    (!mem && !s.en (c.benchOf c.rank) 0x90, 0x0B24),
    (ix != decide (0 < nt) || decide (16 < nt) || (ix && k != 1), 0x0B25),
    ((mem && !(dv == c.srcVirt && c.dst == c.src) && spaceMeet dv c.srcVirt c.dst len c.src len)
      || (mem && tied.any (fun a => spaceMeet dv c.srcVirt c.dst len a len))
      || (mem && c.thin && spaceMeet dv true c.dst len (cdf d 0x20 8) (4 * c.n))
      || (!c.srcVirt && (out c.src len || tied.any (fun a => out a len))) || (mem && !dv && out c.dst len)
      || (ix && out c.entry.ixr.toNat (8 * nt)), 0x0B26)]

/-- A collective as its member starts it. -/
def State.newColl (s : State) (b u : Nat) (e : QEntry) (d : List Byte) (guard : Bool) (own : Word) : Coll :=
  let memb := s.rfld b 0x88 Off.cruGroup 0 16
  { seq := (s.reg b 0x88 Off.cruSeq).toNat, unit := u, entry := e, guard := guard, own := own, desc := d, memb := memb,
    el7 := wbit (s.reg b 0x88 Off.cruCfg) 0 && !guard, rank := popCount b memb, tied := [], parent := [], kids := [], win := [], freed := [],
    upDone := [], downDone := [], cslots := [], busy := [], parts := [], forward := [], toLand := [], landed := [], opened := 0, ended := false }

/-- The first grants of a member (R294, R300): up-streams to its children, down-streams to its parents; with EL7 and DIST = 1, where
every member sends, they carry the digest both ways. DEDUCED: log entry 70. -/
def State.firstGrants (s : State) (b : Nat) (c : Coll) : State :=
  c.trees.foldl (fun s r =>
    let s := if c.kind = 1 then (c.kidsOf r).foldl (fun s k => s.sendGrant b k c r 512) s else s
    if c.kind ≠ 1 || c.dist then (c.parentOf r).toList.foldl (fun s p => s.sendGrant b p c r 512) s else s) s

/-- The SEQ of a packet is that of a collective (its low 16 bits). -/
def pktSeqIs (p : Packet) (n : Nat) : Bool := fld p.word1.toNat 40 16 == n % 65536

/-- CHUNK, TREE, SRANK and SPARSE of a packet (R305). -/
def pktChunk (p : Packet) : Nat := fld p.word1.toNat 0 32
/-- TREE. -/
def pktTree (p : Packet) : Nat := fld p.word1.toNat 32 4
/-- SRANK. -/
def pktRank (p : Packet) : Nat := fld p.word1.toNat 36 4
/-- SPARSE. -/
def pktSparse (p : Packet) : Bool := nbit p.word1.toNat 56

/-- A grant taken (R294, R300). DESIGN CHOICE: log entry 69. -/
def State.takeGrant (s : State) (b : Nat) (c : Coll) (p : Packet) : State :=
  if p.data ≠ c.digest then s.stopColl b c 0x0B10 true
  else
    let r := s.forwardChunks b { c with win := smSet (fun _ => 0) c.win ((pktTree p) * 32 + p.sdie.toNat) (max (pktChunk p) (c.grant (pktTree p) p.sdie.toNat)) }
    r.1.setColl b r.2

/-- An EL7 contribution waits to land: cut into 512-byte slices, numbered over the stream that lands (R309). -/
def Coll.waitLanding (c : Coll) (tree chunk srank : Nat) (vs : List (Option Nat)) : Coll :=
  let bs := c.dense vs
  let per := 512 / max 1 c.size
  let first := (if c.dist then (c.span tree chunk).1 else chunk * c.ce) / max 1 per
  let ps := chunksOf 512 (bs.length / 512 + 1) bs
  { c with toLand := c.toLand ++ (List.range ps.length).map (fun i => (first + i, srank, ps.getD i [])) }

/-- The flits of a chunk gathered until it is whole: its values once it is. -/
def Coll.gather (c : Coll) (p : Packet) : Coll × Option (List (Option Nat)) :=
  let key := ((pktTree p) * 16 + (pktRank p)) * 2 ^ 32 + (pktChunk p)
  let bs := smGet (fun _ => []) c.parts key ++ p.data
  let n := c.wireBytes (pktTree p) (pktChunk p) (pktSparse p) bs
  if n ≤ bs.length then ({ c with parts := smSet (fun _ => []) c.parts key [] }, some (c.ofWire (pktTree p) (pktChunk p) (pktSparse p) bs))
  else ({ c with parts := smSet (fun _ => []) c.parts key bs }, none)

/-- An EL7 contribution taken: it waits to land once it is whole. -/
def State.takeLdata (s : State) (b : Nat) (c : Coll) (p : Packet) : State :=
  if !c.el7 || !c.trees.contains (pktTree p) || c.chunks (pktTree p) ≤ pktChunk p then s
  else
    let r := c.gather p
    match r.2 with
    | none => s.setColl b r.1
    | some vs => s.setColl b (r.1.waitLanding (pktTree p) (pktChunk p) (pktRank p) vs)

/-- Packets that came before the collective started: an ABORT stops it, grants and EL7 contributions are taken.
DEDUCED: log entry 68. -/
def State.takeEarly (s : State) (b : Nat) (c : Coll) : State :=
  let mine := (s.bench b).cru.early.filter (fun p => pktSeqIs p c.seq)
  let s := s.updBench b (fun x => { x with cru := { x.cru with early := x.cru.early.filter (fun p => !pktSeqIs p c.seq) } })
  if mine.any (fun p => p.ptype == 0x14) then s.stopColl b c 0x0B11 false
  else mine.foldl (fun s p => match s.coll b c.seq with
    | some c => if p.ptype = 0x11 then s.takeGrant b c p else if p.ptype = 0x13 then s.takeLdata b c p else s
    | none => s) s

/-- A collective is accepted, takes the next SEQ, and either stops on a fault or starts (R293, R299 to R301).
DEDUCED: log entry 68. -/
def State.beginColl (s : State) (b : Nat) (c : Coll) (code : Option Nat) : State :=
  let s := (s.setReg b 0x88 Off.cruSeq (w32 (c.seq + 1))).updBench b (fun x => { x with cru := { x.cru with act := x.cru.act ++ [c] } })
  match code with
  | some n => ((s.noteRoute b n).updBench b (fun x => { x with cru := { x.cru with early := x.cru.early.filter (fun p => !pktSeqIs p c.seq) } })).stopColl
      b c n true
  | none => (s.firstGrants b c).takeEarly b c

/-- What a collective's start meets: its fault, if any, and whether the engine has room for it (at most four active, and its
slots free). -/
def State.collReady (s : State) (b : Nat) (c : Coll) : Bool :=
  decide ((s.bench b).cru.act.length < 4) && decide (s.slotsInUse b + c.slots ≤ 8192)

/-- The start fault of a collective: a fenced member (R310), the descriptor's (R312), or a member without a route (R286). -/
def State.collCode (s : State) (b : Nat) (c : Coll) (tied : List Nat) : Option Nat :=
  match (if c.guard then none else (s.collFaults c tied).find? (·.1)) with
  | some x => some x.2
  | none =>
    if c.members.any (fun m => m != b && s.fencedOut m) then some 0x0A23
    else if c.members.any (fun m => !s.routed b m) then some 0x0A13
    else none

/-- What a group collective's start finds: the collective as it starts, and its start fault. -/
def State.collStart (s : State) (b u : Nat) (e : QEntry) (d : List Byte) : Coll × Option Nat :=
  let tied := s.tiedList b u e d
  let c0 := s.newColl b u e d false 0
  let code := s.collCode b c0 tied
  (if code.isSome then c0 else s.buildTrees b { c0 with tied := tied, opened := cdf d 0x2C 2 }, code)

/-- The page that runs a collective form of a KIND: GAL_ for the Gallery's, else CRU_. -/
def kindPage (k : Nat) : Nat := if k = 0xA0 ∨ k = 0xA1 then 0x70 else 0x88

/-- A queued form takes the next SEQ when it starts: a group collective, by its descriptor as it stands, or the GUARD of an open task
with GRP = 1 (R293, R325). DEDUCED: log entry 68. -/
def State.takesSeq (s : State) (b u : Nat) (e : QEntry) : Bool :=
  if lfLop e.words = 0x10 then decide (cdf (s.collDesc b u e) 0 1 < 0xA0)
  else lfLop e.words == 0x15 && lfImm e.words % 4 == 1
    && (match (s.bench b).task with | some t => t.owner == u && t.grp && s.taskState b == 1 | none => false)

/-- No queue of the Bench holds an earlier form that takes a SEQ: the engine takes them in issue order (R293, R301).
DEDUCED: log entry 68. -/
def State.seqTurn (s : State) (b : Nat) (e : QEntry) : Bool :=
  (List.range 7).all (fun u => ((s.face b u).qColl ++ (s.face b u).qTask).all (fun f => decide (e.stamp ≤ f.stamp) || !s.takesSeq b u f))

/-- The unit of a collective form can start its queue's head (R244, R293, R301). -/
def State.collHeadReady (s : State) (b u : Nat) (e : QEntry) : Bool :=
  let d := s.collDesc b u e
  let p := kindPage (cdf d 0 1)
  s.waitOk b u e.words && !(s.en b p && s.qsc b p)
    && (!s.en b p || (if p = 0x70 then (s.job b (16 + u)).isNone
      else s.seqTurn b e && (let c := s.collStart b u e d; c.2.isSome || s.collReady b c.1)))

/-- The head of a collective queue starts, if it is of a KIND that `mine` takes. DEDUCED: log entry 68. -/
def State.startCollHead (s : State) (b u : Nat) (mine : Nat → Bool) : State :=
  match (s.face b u).qColl with
  | [] => s
  | e :: _ =>
    let d := s.collDesc b u e
    let k := cdf d 0 1
    if !mine k || !s.collHeadReady b u e then s
    else
      let t := s.takeHead b u .coll e
      if !s.en b (kindPage k) then t.imprecise b u e 0x020D 0
      else if k = 0xA0 then t.startBatch b u e d
      else if k = 0xA1 then t.startPrefetch b u e d
      else let c := s.collStart b u e d; t.beginColl b c.1 c.2

/-! ### The slots (R301, R302) -/

/-- Every neighbour that a chunk goes to has granted it. DEDUCED: log entry 70. -/
def Coll.granted (c : Coll) (tree chunk : Nat) (ps : List Nat) : Bool := ps.all (fun p => decide (chunk < c.grant tree p))

/-- The own contribution is read and added to its slot (R302). -/
def State.addOwn (s : State) (b : Nat) (c : Coll) (tree chunk : Nat) : Ans × Coll :=
  let own := s.contribution b c tree chunk
  if own.1.code ≠ 0 then (own.1, c)
  else let r := own.1.st.addSlot b c tree chunk true own.2; (⟨0, [], r.1⟩, r.2)

/-- A chunk may be handed to the Molt: the chunks of its shard before it have been (R296). -/
def Coll.inOrder (c : Coll) (done : SMap Bool) (tree chunk : Nat) : Bool :=
  c.dstSpace != 2 || c.guard || chunk == 0 || smGet (fun _ => false) done (chunkKey tree (chunk - 1))

/-- A REDUCE slot completes at a member: the own contribution, if it is not in it yet, is added last; the sum goes to the parent, or is
delivered and, with DIST = 1, sent down. DEDUCED: log entry 67. -/
def State.reduceSlot (s : State) (b : Nat) (c : Coll) (tree chunk : Nat) : State :=
  let kids := c.kidsOf tree
  let ready := (c.cslot tree chunk).got == kids.length && (match c.parentOf tree with
    | some p => c.granted tree chunk [p]
    | none => (!c.dist || c.granted tree chunk kids) && c.inOrder c.upDone tree chunk)
  if !ready then s
  else
    let o := if (c.cslot tree chunk).own then (⟨0, [], s⟩, c) else s.addOwn b c tree chunk
    if o.1.code ≠ 0 then s.collAccessFault b c o.1
    else
      let sum := (o.2.cslot tree chunk).vals
      let c := ({ o.2 with upDone := smSet (fun _ => false) o.2.upDone (chunkKey tree chunk) true }).setSlot tree chunk ⟨0, false, []⟩
      let fin := fun (s : State) (c : Coll) => if kids = [] then (s, c) else s.endSlot b c tree chunk false
      match c.parentOf tree with
      | some p =>
        let bs := if c.thin then c.sparse chunk sum else c.dense sum
        let t := if c.thin then o.1.st.bump b 0x88 Off.cruThin (entryCount sum) else o.1.st
        let r := fin (t.sendChunk b p 0x10 c tree chunk c.thin bs) c
        if s.collStalls r.1 b then s.noteStall b else r.1.setColl b r.2
      | none =>
        let d := o.1.st.deliver b c tree chunk sum
        if d.code ≠ 0 then s.collAccessFault b c d
        else if s.collStalls d.st b then s.noteStall b
        else
          let r := if c.dist then d.st.sendDown b c tree chunk (c.dense sum) else (d.st, c)
          let r := fin r.1 r.2
          r.1.setColl b r.2

/-- The contributing rank of a GATHER or a BCAST delivers a chunk to itself and sends it down. -/
def State.sourceSlot (s : State) (b : Nat) (c : Coll) (tree chunk : Nat) : State :=
  if tree ≠ c.rank || !c.granted tree chunk (c.kidsOf tree) then s
  else
    let own := s.contribution b c tree chunk
    if own.1.code ≠ 0 then s.collAccessFault b c own.1
    else
      let d := own.1.st.deliver b c tree chunk own.2
      if d.code ≠ 0 then s.collAccessFault b c d
      else if s.collStalls d.st b then s.noteStall b
      else
        let c := { c with upDone := smSet (fun _ => false) c.upDone (chunkKey tree chunk) true }
        let r := d.st.sendDown b c tree chunk (c.dense own.2)
        r.1.setColl b r.2

/-- A member's EL7 contribution to a chunk goes unsummed to its rank, or to every member, once the tree neighbours that it sends to have
given their digest (R294, R309). DEDUCED: log entry 70. -/
def State.el7Slot (s : State) (b : Nat) (c : Coll) (tree chunk : Nat) : State :=
  let peers := (c.parentOf tree).toList ++ if c.dist then c.kidsOf tree else []
  if peers.any (fun p => c.grant tree p == 0) then s
  else
    let own := s.contribution b c tree chunk
    if own.1.code ≠ 0 then s.collAccessFault b c own.1
    else if s.collStalls own.1.st b then s.noteStall b
    else
      let c := { c with upDone := smSet (fun _ => false) c.upDone (chunkKey tree chunk) true }
      let dests := if c.dist then c.members else [c.benchOf tree]
      let bs := if c.thin then c.sparse chunk own.2 else c.dense own.2
      let others := dests.filter (· != b)
      let t := if c.thin then own.1.st.bump b 0x88 Off.cruThin (entryCount own.2 * others.length) else own.1.st
      let t := others.foldl (fun s m => s.sendChunk b m 0x13 c tree chunk c.thin bs) t
      t.setColl b (if dests.contains b then c.waitLanding tree chunk c.rank own.2 else c)

/-- CRUSHER_SLOT_COMPLETE (R301): the member's contribution to a chunk and those of its children are together, and the chunk goes on.
DEDUCED: log entry 70. -/
def execCrusherSlotComplete (b : BenchId) (seq tree chunk : Nat) (s : State) : Host.Outcome State Fault Refusal :=
  .next (match s.coll b seq with
    | none => s
    | some c =>
      if c.ended || !c.trees.contains tree || decide (c.chunks tree ≤ chunk) || smGet (fun _ => false) c.upDone (chunkKey tree chunk) then s
      else if c.kind ≠ 1 then s.sourceSlot b c tree chunk
      else if c.el7 then s.el7Slot b c tree chunk
      else s.reduceSlot b c tree chunk)

/-! ### Packets (R300, R305, R309, R310) -/

/-- A reduction packet of one TYPE taken off the fabric at its Bench: `none` where it is not on its way there.
DEDUCED: log entry 9. -/
def State.collPacket (s : State) (p : Packet) (ty : Nat) : Option State :=
  if p.ptype.toNat ≠ ty || 16 ≤ p.ddie.toNat then none else s.takePacket p

/-- A packet for a collective that has not started waits; one for a collective that has ended is dropped (R293).
DEDUCED: log entry 68. -/
def State.keepEarly (s : State) (b : Nat) (p : Packet) : State :=
  let next := (s.reg b 0x88 Off.cruSeq).toNat
  if (fld p.word1.toNat 40 16 + 65536 - next % 65536) % 65536 < 32768 then
    s.updBench b (fun x => { x with cru := { x.cru with early := x.cru.early ++ [p] } })
  else s

/-- The active collective of a packet. -/
def State.packetColl (s : State) (b : Nat) (p : Packet) : Option Coll := (s.bench b).cru.act.find? (fun c => pktSeqIs p c.seq && !c.ended)

/-- A packet for its collective, or kept until that starts; a fenced Bench discards it (R280). `eff` acts on a state from which the packet is gone. -/
def State.onColl (s : State) (p : Packet) (ty : Nat) (eff : State → Nat → Coll → State) : State :=
  let b := p.ddie.toNat
  match s.collPacket p ty with
  | none => s
  | some t => if t.deaf b then t else match t.packetColl b p with
    | some c => eff t b c
    | none => t.keepEarly b p

/-- An upward chunk that has arrived whole is added to its slot (R302); the own contribution may have come before it, which the manual
leaves to the clocks. DEDUCED: log entries 67, 71. -/
def State.addChild (s : State) (b : Nat) (c : Coll) (tree chunk : Nat) (vs : List (Option Nat)) : State :=
  let first := Config.ownFirst s.fresh && !(c.cslot tree chunk).own
  let s := s.draw
  let o := if first then s.addOwn b c tree chunk else (⟨0, [], s⟩, c)
  if o.1.code ≠ 0 && o.1.code < waitCode then s.collAccessFault b c o.1
  else
    let t := if o.1.code = 0 then o.1.st else s
    let r := (t.bump b 0x88 Off.cruAdds 1).addSlot b o.2 tree chunk false vs
    r.1.setColl b r.2

/-- RDATA (R305): an upward chunk is added to its slot. DEDUCED: log entry 71. -/
def execRdata (p : Packet) (s : State) : Host.Outcome State Fault Refusal :=
  .next (s.onColl p 0x10 (fun s b c =>
    if !c.trees.contains (pktTree p) || c.chunks (pktTree p) ≤ (pktChunk p) then s
    else
      let r := c.gather p
      match r.2 with
      | none => s.setColl b r.1
      | some vs => s.addChild b r.1 (pktTree p) (pktChunk p) vs))

/-- RGNT (R294, R300): a grant raises the sender's window. -/
def execRgnt (p : Packet) (s : State) : Host.Outcome State Fault Refusal :=
  .next (s.onColl p 0x11 (fun s b c => s.takeGrant b c p))

/-- BDATA (R305): a downward chunk is delivered and forwarded to the children. -/
def execBdata (p : Packet) (s : State) : Host.Outcome State Fault Refusal :=
  .next (s.onColl p 0x12 (fun t b c =>
    if !c.trees.contains (pktTree p) || c.chunks (pktTree p) ≤ (pktChunk p) then t
    else if !c.inOrder c.downDone (pktTree p) (pktChunk p) then s
    else
      let r := c.gather p
      match r.2 with
      | none => t.setColl b r.1
      | some vs =>
        let d := t.deliver b r.1 (pktTree p) (pktChunk p) vs
        if waitCode ≤ d.code then s.noteWait b d.code
        else if d.code ≠ 0 then t.collAccessFault b r.1 d
        else if t.collStalls d.st b then s.noteStall b
        else
          let c := { r.1 with downDone := smSet (fun _ => false) c.downDone (chunkKey (pktTree p) (pktChunk p)) true }
          let g := d.st.sendDown b c (pktTree p) (pktChunk p) (c.dense vs)
          let f := g.1.endSlot b g.2 (pktTree p) (pktChunk p) true
          f.1.setColl b f.2))

/-- LDATA (R309): an EL7 contribution waits to land. -/
def execLdata (p : Packet) (s : State) : Host.Outcome State Fault Refusal :=
  .next (s.onColl p 0x13 (fun s b c => s.takeLdata b c p))

/-- ABORT (R310): the collective stops with 0x0B11. DEDUCED: log entry 73. -/
def execAbort (p : Packet) (s : State) : Host.Outcome State Fault Refusal :=
  .next (s.onColl p 0x14 (fun s b c => s.stopColl b c 0x0B11 false))

/-! ### EL7 landing (R309) -/

/-- CREL and LCNT. -/
def Coll.crel (c : Coll) : Nat := cdf c.desc 0x2E 1
/-- LCNT. -/
def Coll.lcnt (c : Coll) : Nat := cdf c.desc 0x2F 1

/-- A slice lands at LAND + ((c mod WL) × G + SRANK) × 512; the last of its chunk advances LCNT. DEDUCED: log entry 71. -/
def State.landSlice (s : State) (b : Nat) (c : Coll) (x : Nat × Nat × List Byte) : State :=
  let a := cdf c.desc 0x28 4 + ((x.1 % max 1 (cdf c.desc 0x2C 2)) * c.g + x.2.1) * 512
  let ws := [(fsLoc b c.unit a, x.2.2)]
  if s.storeStalls b 8 ws then s.noteStall b
  else
    let n := smGet (fun _ => 0) c.landed x.1 + 1
    let s := (s.storesAs b 8 ws).setColl b { c with toLand := c.toLand.erase x, landed := smSet (fun _ => 0) c.landed x.1 n }
    if n ≠ c.g then s
    else if s.tokenMode b c.unit then s.pushTokens b c.unit c.lcnt 1
    else s.addCounter b c.unit c.lcnt 1

/-- The chunk groups that may land: those of the first WL and those whose slot was released, by counter or by token. -/
def State.landLimit (s : State) (b : Nat) (c : Coll) : Nat :=
  if s.tokenMode b c.unit then c.opened else cdf c.desc 0x2C 2 + s.counter b c.unit c.crel

/-- The oldest slice of a collective that may land: its slot is released, and there is room for the landed token. -/
def State.landable (s : State) (b : Nat) (c : Coll) : Option (Nat × Nat × List Byte) :=
  c.toLand.find? (fun x => decide (x.1 < s.landLimit b c)
    && !(s.tokenMode b c.unit && smGet (fun _ => 0) c.landed x.1 + 1 == c.g && decide (1024 ≤ s.tokens b c.unit c.lcnt)))

/-- In token mode a collective pops one release token, where a slice waits for it. -/
def State.popRelease (s : State) (b : Nat) (c : Coll) : Option (State × Coll) :=
  if s.tokenMode b c.unit && decide (1 ≤ s.tokens b c.unit c.crel) && c.toLand.any (fun x => decide (c.opened ≤ x.1)) then
    let c := { c with opened := c.opened + 1 }
    some ((s.popToken b c.unit c.crel).setColl b c, c)
  else none

/-- EL7_LAND (R309): of the EL7 collectives, each gated by its own release, the first with a slice whose slot is released lands it; where
none has, the first that can pops a release token, and lands a slice that it frees. -/
def execEl7Land (b : BenchId) (s : State) : Host.Outcome State Fault Refusal :=
  let act := (s.bench b).cru.act.filter (fun c => c.el7 && c.toLand != [])
  .next (match act.findSome? (fun c => (s.landable b c).map (fun x => (c, x))) with
    | some (c, x) => s.landSlice b c x
    | none => match act.findSome? (fun c => s.popRelease b c) with
      | none => s
      | some (t, c) => match t.landable b c with
        | some x => t.landSlice b c x
        | none => t)

/-! ### Completion (R304) -/

/-- A chunk of a collective still waits at an output port of its Bench (R304). -/
def State.collLeaving (s : State) (b : Nat) (c : Coll) : Bool :=
  (List.range 5).any (fun q => (s.port b q).out.any (fun x => x.cell.isNone && pktSeqIs x.pkt c.seq
    && (x.pkt.ptype == 0x10 || x.pkt.ptype == 0x12 || x.pkt.ptype == 0x13)))

/-- Every chunk that a member must send has left its port and every chunk that it must deliver has been delivered. -/
def State.collDone (s : State) (b : Nat) (c : Coll) : Bool :=
  let all := c.trees.foldl (fun n r => n + c.chunks r) 0
  let own := c.chunks c.rank
  let up := c.upDone.length
  let down := c.downDone.length
  let per := 512 / max 1 c.size
  let slices := ceilDiv (if c.dist then c.n else (c.shard c.rank).2) (max 1 per)
  let counts := if c.kind = 1 then
      decide (up = all) && (if c.el7 then (List.range slices).all (fun g => smGet (fun _ => 0) c.landed g == c.g)
        else if c.dist then decide (down = all - own) else true)
    else if c.kind = 2 then decide (up = own) && decide (down = all - own)
    else if c.rank = c.root then decide (up = all) else decide (down = all)
  counts && !s.collLeaving b c && c.forward.isEmpty && c.toLand.isEmpty && !(s.bench b).molt.chunks.any (fun g => g.seq == c.seq)

/-- COLL_COMPLETE (R304): the SIGNAL and the remote signal are given and the slots freed; a full token queue holds the SIGNAL (R106).
DEDUCED: log entry 7. -/
def execCollComplete (b : BenchId) (seq : Nat) (s : State) : Host.Outcome State Fault Refusal :=
  .next (match s.coll b seq with
    | none => s
    | some c =>
      let rsig := w32 (cdf c.desc 4 4)
      if c.ended || !s.collDone b c then s
      else if c.guard then (s.dropColl b c.seq).raise b 0x88 0x10000
      else if wfld rsig 8 2 ≠ 0 && s.sigsFull b && s.taskState b == 1 && s.inTask b 8 then s.noteStall b
      else
        let s1 := s.raise b 0x88 0x10000
        if rsigMalformed rsig || s.signalRoom b c.unit c.entry.words then
          (s1.dropColl b c.seq).finishWith b c.unit 8 (16 + c.unit) c.entry rsig
        else (s1.sendRemote b 8 (16 + c.unit) rsig).setColl b { c with ended := true })

/-- COLL_TIMEOUT (R310): a collective without progress stops with 0x0B12. DEDUCED: log entry 11. -/
def execCollTimeout (b : BenchId) (seq : Nat) (s : State) : Host.Outcome State Fault Refusal :=
  .next (match s.coll b seq with
    | some c => if c.ended then s else s.stopColl b c 0x0B12 true
    | none => s)

end Sys2Proof.Machine
end

