-- ==== Sys2Proof/Machine/Spec.lean ====
section
/-!
DEFINITION. Speculative tasks (R320 to R328), the Molt's layers and passes (R315, R316, R318), and the start of a queue's head, which
needs every unit (R79).
-/

namespace Sys2Proof.Machine

/-! ### Ends of task operations -/

/-- A task operation ends with its SIGNAL, which a full token queue holds (R82, R106). -/
def State.endTaskOp (s : State) (b u : Nat) (e : QEntry) : State :=
  if s.signalRoom b u e.words then s.giveSignal b u e.words else s.updFace b u (fun f => { f with taskEnded := some e })

/-- SPC_TSTAT.STATE set. -/
def State.setTaskState (s : State) (b v : Nat) : State := s.setFld b 0x98 Off.spcTstat 0 3 v

/-- The open task changed. -/
def State.updTask (s : State) (b : Nat) (f : Task → Task) : State := s.updBench b (fun x => { x with task := x.task.map f })

/-- The task closes (R328): the state returns to 0, and a waiting END ends. -/
def State.closeTask (s : State) (b : Nat) : State :=
  match (s.bench b).task with
  | none => s
  | some t =>
    let s := ((s.setTaskState b 0).setFld b 0x98 Off.stat 16 1 0).setFld b 0x98 Off.spcTstat 9 1 0
    let s := s.updBench b (fun x => { x with task := none, held := [], heldKey := [] })
    match t.ending with
    | some e => s.endTaskOp b t.owner e
    | none => s

/-- An END that waits completes once the task has drained or has been discarded (R328). -/
def State.settleEnd (s : State) (b : Nat) : State :=
  match (s.bench b).task with
  | some t =>
    if t.ending.isSome && (s.taskState b = 3 || (s.taskState b = 2 && !wbit (s.reg b 0x98 Off.stat) 17)) then s.closeTask b else s
  | none => s

/-- Every agent that a stall held goes on. -/
def State.liftStalls (s : State) (b : Nat) : State := (s.setFld b 0x98 Off.stat 18 1 0).advanceAll b

/-- The bytes that a line of held bytes writes: runs of consecutive places within one line. -/
def heldRuns : SMap (Option Byte) → List (Nat × List Byte)
  | [] => []
  | (k, v) :: m =>
    match v with
    | none => heldRuns m
    | some x => match heldRuns m with
      | (l, bs) :: rs => if l = k + 1 && l % 128 ≠ 0 then (k, x :: bs) :: rs else (k, [x]) :: (l, bs) :: rs
      | [] => [(k, [x])]

/-- The held lines of a task that commits reach their memories (R326): from its commit on every agent reads them, so that the model lets
them stand there at once; `held` keeps the lines that still count as draining. DEDUCED: log entry 75. -/
def State.drainHeld (s : State) (b : Nat) : State :=
  let keys := (s.bench b).heldKey
  (heldRuns (s.bench b).held).foldl (fun s r =>
    ((s.updatePrefetched b r.1 r.2).targetWrite r.1 (smGet (fun _ => 0) keys (lineStart r.1)) r.2).st) s

/-- No held line drains any more. -/
def State.drained (s : State) (b : Nat) : State :=
  (s.updBench b (fun x => { x with held := [], heldKey := [] })).setFld b 0x98 Off.stat 17 1 0

/-- A clean verdict commits the task (R326). DEDUCED: log entry 75. -/
def State.commit (s : State) (b : Nat) : State :=
  match (s.bench b).task with
  | none => s
  | some t =>
    let s := ((s.drainHeld b).setTaskState b 2).setFld b 0x98 Off.stat 17 1 (!(s.bench b).held.isEmpty).toNat
    let s := t.sigs.foldl (fun s x => s.send (s.rsigPacket b x.2 x.1 false)) (s.updTask b (fun t => { t with sigs := [] }))
    let s := ((s.bump b 0x98 Off.spcCommit 1).raise b 0x98 0x10000).ringSignal b t.owner t.okSig
    s.liftStalls b

/-- The task is discarded with a code (R324, R327, R328): held writes and signals are dropped, and BADSIG acts. -/
def State.discard (s : State) (b code : Nat) : State :=
  match (s.bench b).task with
  | none => s
  | some t =>
    if s.taskState b ≠ 1 then s
    else
      let s := (s.setTaskState b 3).updBench b (fun x => { x with held := [], heldKey := [] })
      let s := (s.updTask b (fun t => { t with sigs := [] })).recordFirst b 0x98 Off.spcTlog code
      let s := ((s.bump b 0x98 Off.spcDisc 1).raise b 0x98 0x20000).ringSignal b t.owner t.badSig
      (s.liftStalls b).settleEnd b

/-- A GUARD that is waiting for its verdict ends without one when the task is discarded by something else.
DEDUCED: log entry 75. -/
def State.endGuard (s : State) (b : Nat) : State :=
  match (s.bench b).task with
  | some t => match t.guard with
    | some e => (s.updTask b (fun t => { t with guard := none })).endTaskOp b t.owner e
    | none => s
  | none => s

/-! ### The task queue (R320, R321, R325, R327, R328) -/

/-- A malformed task descriptor (R320). -/
def taskBad (d : List Byte) : Bool :=
  cdf d 0 1 != 1 || decide (3 < cdf d 1 1) || decide (511 < cdf d 2 2) || decide (7 < cdf d 5 1) || cdf d 6 2 != 0 || cdf d 0x10 48 != 0

/-- TASK_BEGIN starts (R321). -/
def State.beginTask (s : State) (b u : Nat) (e : QEntry) : State :=
  let d := s.bytesAs b (agentOf u) (fsLoc b u e.ga.toNat) 64
  if taskBad d then s.imprecise b u e 0x0C11 0
  else
    let t : Task := { owner := u, agents := cdf d 2 2, grp := nbit (cdf d 1 1) 0, gclr := nbit (cdf d 1 1) 1, gsrc := cdf d 4 1, gbit := cdf d 5 1,
                      okSig := w32 (cdf d 8 4), badSig := w32 (cdf d 0xC 4), guard := none, unclean := false, resolved := false, faulted := false,
                      ending := none, sigs := [] }
    let s := s.updBench b (fun x => { x with task := some t, held := [], heldKey := [] })
    let n := s.rfld b 0x98 Off.spcTstat 16 16 + 1
    let w := s.rfld b 0x98 Off.spcTstat 8 1
    let s := s.setReg b 0x98 Off.spcTstat (w32 (1 + 8 * u + 256 * w + 512 * t.grp.toNat + n % 65536 * 65536))
    (s.setFld b 0x98 Off.stat 16 1 1).endTaskOp b u e

/-- The sticky flags that GSRC names: page, offset (R320). -/
def guardSources (gsrc : Nat) : List (Nat × Nat) :=
  (List.range 6).filterMap (fun f => if nbit gsrc f then some (0x48 + f, Off.vecAflags) else none)
    ++ (if nbit gsrc 6 then [(0x88, Off.cruAflags)] else []) ++ (if nbit gsrc 7 then [(0x90, Off.mltAflags)] else [])

/-- The exchange that a GUARD of the open task begins, by the value of its own flags (R325). -/
def State.guardColl (s : State) (b u : Nat) (e : QEntry) (dirty : Bool) : Coll :=
  s.buildTrees b (s.newColl b u e [] true (if dirty then 0x3F800000 else 0))

/-- GUARD starts (R325): the flags are sampled, and cleared with GCLR = 1; with GRP = 1 the exchange takes the next SEQ; it waits at the
head of its queue until the collective engine can take the exchange (`taskHeadReady`). DEDUCED: log entry 72. -/
def State.startGuard (s : State) (b u : Nat) (e : QEntry) : State :=
  match (s.bench b).task with
  | none => s.imprecise b u e 0x0C10 0
  | some t =>
    if t.owner ≠ u then s.imprecise b u e 0x0C10 0
    else if s.taskState b ≠ 1 then s.imprecise b u e 0x0C13 0
    else
      let srcs := guardSources t.gsrc
      let dirty := srcs.any (fun x => s.rfld b x.1 x.2 0 3 &&& t.gbit != 0)
      let c := s.guardColl b u e dirty
      let off := !s.en b 0x88
      let s := if t.gclr then srcs.foldl (fun s x => s.setReg b x.1 x.2 (s.reg b x.1 x.2 &&& ~~~ (w32 t.gbit))) s else s
      let s := s.setFld b 0x98 Off.spcTstat 8 1 dirty.toNat
      let s := s.updTask b (fun t => { t with guard := some e, unclean := dirty || (t.grp && off), resolved := !t.grp || off, faulted := t.grp && off })
      if t.grp && !off then s.beginColl b c (s.collCode b c []) else s

/-- END starts (R321, R328). -/
def State.startEnd (s : State) (b u : Nat) (e : QEntry) : State :=
  match (s.bench b).task with
  | none => s.imprecise b u e 0x0C10 0
  | some t => if t.owner ≠ u then s.imprecise b u e 0x0C10 0 else (s.updTask b (fun t => { t with ending := some e })).settleEnd b

/-- ABORT starts (R321, R327): in SPEC it discards the task. -/
def State.startAbort (s : State) (b u : Nat) (e : QEntry) : State :=
  match (s.bench b).task with
  | none => s.imprecise b u e 0x0C10 0
  | some t => if t.owner ≠ u then s.imprecise b u e 0x0C10 0 else (s.discard b 0x0C19).endTaskOp b u e

/-- The operation of a task entry: 4 is TASK_BEGIN, 0 to 2 are those of TASK_END. -/
def taskOp (e : QEntry) : Nat := if lfLop e.words = 0x14 then 4 else lfImm e.words % 4

/-- The task unit can start its queue's head (R320, R325). -/
def State.taskHeadReady (s : State) (b u : Nat) (e : QEntry) : Bool :=
  s.waitOk b u e.words && !s.taskBusy b u && (!s.en b 0x98 || match taskOp e, (s.bench b).task with
    | 4, t => !s.qsc b 0x98 && t.isNone
    | 1, some t => t.owner != u || s.taskState b != 1 || !t.grp || !s.en b 0x88
        || (!s.qsc b 0x88 && s.seqTurn b e && s.collReady b (s.guardColl b u e false))
    | _, _ => true)

/-- The head of a task queue starts, if `mine` takes its operation: 4 is TASK_BEGIN, 0 to 2 are those of TASK_END. The END of a task that
a reset or a disable of the page has discarded completes though the page is disabled (R328). DEDUCED: log entry 75. -/
def State.startTaskHead (s : State) (b u : Nat) (mine : Nat → Bool) : State :=
  match (s.face b u).qTask with
  | [] => s
  | e :: _ =>
    if !mine (taskOp e) || !s.taskHeadReady b u e then s
    else
      let t := s.takeHead b u .task e
      if !s.en b 0x98 && !(taskOp e == 0 && (match (s.bench b).task with | some x => x.owner == u | none => false)) then t.imprecise b u e 0x020D 0
      else match taskOp e with
        | 4 => t.beginTask b u e
        | 1 => t.startGuard b u e
        | 2 => t.startAbort b u e
        | _ => t.startEnd b u e

/-- The head of a unit's queue would start now: its WAIT is satisfied, and its unit takes it (R79). -/
def State.headReady (s : State) (b u : Nat) (q : QueueId) : Bool :=
  match (s.face b u).queue q with
  | [] => false
  | e :: _ => match q with
    | .slab => s.waitOk b u e.words && s.slabReady b u e
    | .chute => s.chuteReady b u e
    | .weevil => s.weevilReady b u e
    | .hauler => s.haulHandReady b u e || s.haulHeadReady b u e
    | .coll => s.collHeadReady b u e
    | .task => s.taskHeadReady b u e

/-- A form that would pop the last token of a queue waits for a queue of higher rank whose head would pop it (R105): the form's words,
and the queues ahead of it. DESIGN CHOICE: log entry 8. -/
def State.outranked (s : State) (b u : Nat) (ws : List Word) (ahead : List QueueId) : Bool :=
  s.tokenMode b u && lfWc ws && s.tokens b u (lfWcn ws) == 1
    && ahead.any (fun q => s.headReady b u q && match (s.face b u).queue q with
      | e :: _ => lfWc e.words && lfWcn e.words == lfWcn ws
      | [] => false)

/-- The head of a queue gives way to a queue of higher rank (R105). DESIGN CHOICE: log entry 8. -/
def State.headOutranked (s : State) (b u : Nat) (q : QueueId) : Bool :=
  match (s.face b u).queue q with
  | e :: _ => s.outranked b u e.words (allQueues.takeWhile (· != q))
  | [] => false

/-- GUARD (R325): the queue's head, a GUARD, starts. -/
def execGuard (u : UnitId) (s : State) : Host.Outcome State Fault Refusal :=
  .next (if s.headOutranked u.bench.val u.unit.val .task then s else s.startTaskHead u.bench.val u.unit.val (· == 1))

/-- TASK_END_ABORT (R327): the queue's head, an ABORT, starts. -/
def execTaskEndAbort (u : UnitId) (s : State) : Host.Outcome State Fault Refusal :=
  .next (if s.headOutranked u.bench.val u.unit.val .task then s else s.startTaskHead u.bench.val u.unit.val (· == 2))

/-- A collective queue's head of one KIND starts. -/
def State.startKind (s : State) (u : UnitId) (k : Nat) : State :=
  if s.headOutranked u.bench.val u.unit.val .coll then s else s.startCollHead u.bench.val u.unit.val (· == k)

/-- REDUCE (R296): the queue's head, a REDUCE, starts. -/
def execReduce (u : UnitId) (s : State) : Host.Outcome State Fault Refusal := .next (s.startKind u 1)

/-- GATHER (R296). -/
def execGather (u : UnitId) (s : State) : Host.Outcome State Fault Refusal := .next (s.startKind u 2)

/-- BCAST (R296). -/
def execBcast (u : UnitId) (s : State) : Host.Outcome State Fault Refusal := .next (s.startKind u 3)

/-- ATOMIC_BATCH (R244): the queue's head, of KIND 0xA0, starts. -/
def execAtomicBatch (u : UnitId) (s : State) : Host.Outcome State Fault Refusal := .next (s.startKind u 0xA0)

/-- PREFETCH (R240): the queue's head, of KIND 0xA1, starts. -/
def execPrefetch (u : UnitId) (s : State) : Host.Outcome State Fault Refusal := .next (s.startKind u 0xA1)

/-- BENCH_HAULER_ACCEPT (R201, R221): a queue head bound for the Bench Hauler is handed over; with the Bench Hauler disabled it
stops with 0x080D. -/
def execBenchHaulerAccept (u : UnitId) (s : State) : Host.Outcome State Fault Refusal :=
  .next (if s.headOutranked u.bench.val u.unit.val .hauler then s else s.handOver u.bench.val u.unit.val)

/-- LSYNC_RELEASE (R79, R103, R104, R106): the WAIT is satisfied, the token is popped, the SIGNAL is given once there is room for
it, and the core goes on. -/
def execLsyncRelease (c : CoreId) (s : State) : Host.Outcome State Fault Refusal :=
  let b := coreBench c
  let u := coreUnit c
  let k := s.core (coreKey c)
  let ws := s.fetchLong c
  .next (if !k.holding || (s.face b u).parked then s
    else if !k.popped && (!s.waitOk b u ws || s.outranked b u ws allQueues) then s
    else
      let s1 := if k.popped then s else s.takeWait b u ws
      if s1.signalRoom b u ws then
        (s1.giveSignal b u ws).updCore (coreKey c) (fun k => { k with holding := false, popped := false, pc := k.pc + 16 })
      else s1.updCore (coreKey c) (fun k => { k with popped := true }))


/-- QUEUE_ENTRY_START (R79, R105): the head of a queue starts once its WAIT is satisfied and its unit is free; as unit 6 of the Hauler
queue the Bench Hauler starts its oldest accepted entry. DEDUCED: log entry 7. -/
def execQueueEntryStart (u : UnitId) (q : QueueId) (par : List ParityHit) (s : State) : Host.Outcome State Fault Refusal :=
  let b := u.bench.val
  let f := u.unit.val
  .next (if s.headOutranked b f q then s else match q with
    | .slab => s.startSlabHead b f par
    | .chute => s.startChuteHead b f
    | .weevil => s.startWeevilHead b f
    | .hauler => if f = 6 then s.startBenchHaul b else s.startHaulHead b f
    | .coll => s.startCollHead b f (fun _ => true)
    | .task => s.startTaskHead b f (fun _ => true))

/-- GUARD_VERDICT (R325 to R327): a known value is applied, and the GUARD gives its SIGNAL. -/
def execGuardVerdict (b : BenchId) (s : State) : Host.Outcome State Fault Refusal :=
  .next (match (s.bench b).task with
    | some t => if t.guard.isSome && t.resolved then
        (if t.unclean then s.discard b (if t.faulted then 0x0C16 else 0x0C18) else if s.taskState b = 1 then s.commit b else s).endGuard b
      else s
    | none => s)

/-- SPEC_DRAIN_DONE (R326, R328): all held lines have drained: DRAIN clears, and a waiting END completes.
DEDUCED: log entry 75. -/
def execSpecDrainDone (b : BenchId) (s : State) : Host.Outcome State Fault Refusal :=
  .next (if s.taskState b ≠ 2 || !wbit (s.reg b 0x98 Off.stat) 17 then s else (s.drained b).settleEnd b)

/-- The task is closed without its END, whose queue is gone (R283, R328, R368). DEDUCED: log entry 75. -/
def State.dropTask (s : State) (b : Nat) : State :=
  let s := (((s.drained b).setTaskState b 0).setFld b 0x98 Off.stat 16 1 0).setFld b 0x98 Off.spcTstat 9 1 0
  s.updBench b (fun x => { x with task := none })

/-- SPEC_STALL_TIMEOUT (R324): a stall that has lasted STOUT µs discards the task. DEDUCED: log entry 11. -/
def execSpecStallTimeout (b : BenchId) (s : State) : Host.Outcome State Fault Refusal :=
  .next (if s.rfld b 0x98 Off.spcCfg 0 16 = 0 || !wbit (s.reg b 0x98 Off.stat) 18 then s else s.discard b 0x0C15)

/-- The SPC_ page is reset or disabled, the Bench reassigned, or a fence discards (R328). -/
def State.stopTask (s : State) (b : Nat) : State := s.discard b 0x0C14

/-! ### Layers and passes (R315, R316) -/

/-- The entry of a layer in the table at MLT_LTAB. DEDUCED: log entry 74. -/
def State.layerEntry (s : State) (b l : Nat) : List Byte := s.bytesAs b 7 (fsLoc b 6 ((s.reg b 0x90 Off.mltLtab).toNat + 64 * l)) 64

/-- A malformed layer entry (R315). DEDUCED: log entry 74. -/
def layerBad (e : List Byte) : Bool :=
  let n := layerCnt e
  decide (15 < layerField e 9 1) || layerField e 0xA 6 != 0 || decide (1 < layerField e 8 1) || n == 0 || decide (2 ^ 28 < n)
    || layerField e 0x10 8 % 2 != 0 || layerField e 0x18 8 % 2 != 0 || (layerFlag e 1 && layerField e 0x20 8 % 4 != 0)
    || (layerFlag e 2 && layerField e 0x28 8 % 4 != 0) || layerField e 0x30 8 % (if layerBf16 e then 2 else 4) != 0

/-- LSEL_WRITE (R316): pass 1 or pass 2 of a layer opens for all strands, with every cursor at 0; a malformed entry raises 0x0C08.
DEDUCED: log entry 74. -/
def execLselWrite (c : CoreId) (s : State) : Host.Outcome State Fault Refusal :=
  .next (s.issue c (isLselWrite c) (fun w =>
    let b := coreBench c
    let old := s.csrValue c 0x040
    let v := (csrNew (sfImm15 w / 4096) (old.getD 0) (s.readG c (sfA w))).toNat
    let layer := fld v 0 12
    let second := nbit v 12
    let e := s.layerEntry b layer
    let s1 := s.writeG c (sfD w) (old.getD 0)
    let bad := (s.reg b 0x90 Off.mltLnum).toNat ≤ layer || (second && !smGet (fun _ => false) (s.bench b).molt.pass1 layer)
    if bad || s.passOpen b || !layerBad e then
      let s2 := s1.setReg b 0x90 Off.mltLsel (w32 (0x80000000 + fld v 0 13))
      let s3 := (List.range 8).foldl (fun s k => s.updCore (b * 16 + 8 + k) (fun c => { c with access := [] })) s2
      let s4 := s3.updMolt b (fun m => { m with entry := e, grad := [], popped := 0, wrote30 := 0, wrote26 := 0, wrote25 := 0 })
      s.sequential c [(bad, 0x0C06, 0), (s.passOpen b, 0x0C07, 0)] s4
    else
      s.sequential c [] (s1.exception b 6 (coreStrand c) 0x0C08 0 (s.face b 6).bank (s.core (coreKey c)).pc false true)))

/-- PASS_CLOSE (R316): the pass closes once every element has been read, or written, as it requires. -/
def execPassClose (b : BenchId) (s : State) : Host.Outcome State Fault Refusal :=
  .next (
    let m := (s.bench b).molt
    let n := layerCnt m.entry
    let layer := s.rfld b 0x90 Off.mltLsel 0 12
    let done := if s.pass2 b then decide (n ≤ m.wrote30) && (!layerFlag m.entry 1 || decide (n ≤ m.wrote26)) && (!layerFlag m.entry 2 || decide (n ≤ m.wrote25))
      else decide (n ≤ m.popped)
    if !s.passOpen b || !done then s
    else (s.setFld b 0x90 Off.mltLsel 31 1 0).updMolt b (fun x => { x with pass1 := smSet (fun _ => false) x.pass1 layer (!s.pass2 b) }))

/-- The elements of a chunk that lie in a layer's range: position in the layer and value. -/
def chunkInLayer (e : List Byte) (g : GChunk) : List (Nat × Word) :=
  (List.range g.vals.length).filterMap (fun i =>
    let at_ := g.first + i
    let base := layerField e 0 4
    if base ≤ at_ && at_ < base + layerCnt e then some (at_ - base, g.vals.getD i 0) else none)

/-- What a chunk gives when it is taken now: `none` while it keeps its slot. A chunk without a layer, or wholly outside its layer's
range, gives nothing; one of the layer whose pass 1 is open gives the elements in range (R318). -/
def State.chunkTaken (s : State) (b : Nat) (g : GChunk) : Option (List (Nat × Word)) :=
  if (s.reg b 0x90 Off.mltLnum).toNat ≤ g.ltag then some []
  else
    let e := s.layerEntry b g.ltag
    let here := chunkInLayer e g
    if here = [] then some []
    else if s.passOpen b && !s.pass2 b && g.ltag == s.rfld b 0x90 Off.mltLsel 0 12 && !layerFlag (s.bench b).molt.entry 3 then
      some (chunkInLayer (s.bench b).molt.entry g)
    else none

/-- MOLT_CHUNK_TAKE (R304, R318): the first chunk that can be taken is, and its combining-buffer slot is freed; elements outside the
layer's range are counted in MLT_GDROP. -/
def execMoltChunkTake (b : BenchId) (s : State) : Host.Outcome State Fault Refusal :=
  .next (if !s.en b 0x90 then s
    else match (s.bench b).molt.chunks.find? (fun g => (s.chunkTaken b g).isSome) with
    | none => s
    | some g =>
      let xs := (s.chunkTaken b g).getD []
      let lost := g.vals.length - xs.length
      let s := (s.bump b 0x90 Off.mltChunk 1).updMolt b (fun m =>
        { m with chunks := m.chunks.erase g, grad := xs.foldl (fun a x => smSet (fun _ => none) a x.1 (some x.2)) m.grad })
      let s := match s.coll b g.seq with
        | some c => let r := s.freeSlots b c; r.1.setColl b r.2
        | none => s
      if lost = 0 then s else (s.bump b 0x90 Off.mltGdrop lost).raise b 0x90 0x40000)

end Sys2Proof.Machine
end

