-- ==== Sys2Proof/Machine/Reset.lean ====
section
/-!
DEFINITION. What runs in a block, quiesce, and the resets: of a page (R33), of a Bench between contexts (R368), of a die, and of
the whole panel (R424 to R426); and what the fuses load at them (R133, R249, R376).
-/

namespace Sys2Proof.Machine

/-! ### Work in flight (R22, R33, R90) -/

/-- An operation of a unit names Slab `k`. -/
def Face.usesSlab (f : Face) (k : Nat) : Bool := (f.loads ++ f.streams ++ f.drain.toList).any (fun op => op.slabs.contains k)

/-- STAT.RUN of a page: its block has work in flight. For a Face, R90. -/
def State.pageRun (s : State) (d p : Nat) : Bool :=
  match pageKind d p with
  | some .fcc => !(s.face d (p - 0x10)).parked || !(s.face d (p - 0x10)).queuesEmpty || !s.unitsIdle d (p - 0x10)
  | some .mlt => !(s.face d 6).parked || !(s.face d 6).queuesEmpty || !s.unitsIdle d 6
  | some .slb => (s.face d ((p - 0x20) / 4)).usesSlab ((p - 0x20) % 4) || wbit (s.reg d p Off.stat) 21
  | some .chu => !(s.face d (p - 0x40)).chute.isEmpty
  | some .vec => !(s.face d (p - 0x48)).tileQ.isEmpty || !(s.face d (p - 0x48)).deferred.isEmpty
  | some .wev => (s.face d (p - 0x50)).weevil.isSome
  | some .siv => (s.face d (p - 0x58)).sieveD.isSome || (s.face d (p - 0x58)).sieveV.isSome
  | some .hlr => (s.job d (p - 0x60)).isSome || decide (s.pendingKicks d (p - 0x60) ≠ 0) || (p == 0x66 && !(s.bench d).haulQ.isEmpty)
  | some .xlt => (s.bench d).invBusy || (s.bench d).jobs.any (fun e => match e.2 with | some j => j.walk.isSome | none => false)
  | some .gal => (s.bench d).clearing || (s.bench d).flushing || (List.range 7).any (fun u => (s.job d (16 + u)).isSome)
  | some .hbm | some .stkCtl => s.rfld d p Off.stat 16 2 == 1
  | some .lnk => s.rfld d p Off.stat 16 3 == 1 || s.rfld d p Off.stat 16 3 == 3
  | some .cru => !(s.bench d).cru.act.isEmpty
  | some .spc => wbit (s.reg d p Off.stat) 17
  | some .ring =>
    let r := smGet (fun _ => Ring.empty) s.rings (p - 0x20)
    decide (r.phase ≠ 0) || !r.ready.isEmpty || !r.run.isEmpty
  | some .cmdEngine => s.rings.any (fun r => decide (r.2.phase ≠ 0) || !r.2.ready.isEmpty || !r.2.run.isEmpty)
  | some .carGlobal => wbit (s.reg d p Off.stat) 16
  | _ => false

/-- The queue entries of a unit that have not started are discarded without SIGNAL and counted (R92). -/
def State.discardQueues (s : State) (b u : Nat) : State :=
  let n := (allQueues.map (fun q => ((s.face b u).queue q).length)).sum
  let s := s.updFace b u (fun f => allQueues.foldl (fun f q => f.setQueue q []) f)
  if u = 6 then s else s.bump b (ctlPage u) Off.fccQdisc n

/-- The block takes a quiesce request (R33, R91, R92, R236): a control core parks with cause 2, and discards its queues where
CTL.DISCARD says so; every other block starts nothing more, as its chapter's start conditions say. DEDUCED: log entry 104. -/
def State.quiesceUnit (s : State) (b u : Nat) (disc : Bool) : State :=
  let s := if (s.face b u).parked then s else s.parkUnit b u 2
  if disc then s.discardQueues b u else s

/-! ### Fuses loaded (R133, R249, R376, R384, R388) -/

/-- The valid bypassed pairs of a Slab. -/
def State.fusedPairs (s : State) (d i : Nat) : List Nat :=
  ((smGet (fun _ => []) s.fuses.colByp (d * 32 + i)).filter (·.2)).map (·.1)

/-- SLB_FBYP0–1, COLS and the number of fused records of a Slab from its fuses (R133, R136). -/
def State.loadColumns (s : State) (d i : Nat) : State :=
  let m := maskOf (s.fusedPairs d i)
  let s := (s.setReg d (0x20 + i) Off.slbFbyp0 (w32 m)).setReg d (0x20 + i) Off.slbFbyp1 (w32 (m / 2 ^ 32))
  (s.setFld d (0x20 + i) Off.slbGeom 0 8 (128 - 2 * popCount 64 m)).setFld d (0x20 + i) Off.slbGeom 16 3 (s.fusedPairs d i).length

/-- HBM_LMAP and HBM_TRES.FREC of a stack from the records that the last Bench reset loaded (R9, R249, R254). -/
def State.showRepairs (s : State) (d k : Nat) : State :=
  let recs := smGet (fun _ => []) (s.bench d).hbmRec k
  recs.foldl (fun s x =>
    if !x.2.2.2 then s
    else
      let o := Off.hbmLmap + 4 * (x.1 % 16)
      (s.setFld d (0x74 + k) o (8 * (x.2.2.1 % 2)) 8 x.2.1).setFld d (0x74 + k) o (16 + x.2.2.1 % 2) 1 1)
    (s.setFld d (0x74 + k) Off.hbmTres 0 5 (recs.countP (·.2.2.2)))

/-- A Bench reset loads the repair records of a stack from the fuses (R249). -/
def State.loadLanes (s : State) (d k : Nat) : State :=
  (s.updBench d (fun x => { x with hbmRec := smSet (fun _ => []) x.hbmRec k (smGet (fun _ => []) s.fuses.hbmRep (d * 2 + k)) })).showRepairs d k

/-- The FUS_ pages as the fuses stand (R388). FUS_RET shows the retirements in force. -/
def State.showFuses (s : State) : State :=
  let f := s.fuses
  let own := fun i => smGet (fun _ => (0, [])) f.owners i
  let s := ((s.setReg 21 0xE0 Off.fusSvn (w32 f.svn)).setReg 21 0xE0 Off.fusOwn (w32 ((List.range 8).foldl (fun n i =>
    n + (own i).1 * 4 ^ i) 0))).setReg 21 0xE0 Off.fusRet (w32 s.retired)
  let s := (s.setReg 21 0xE0 Off.fusRetpend (w32 f.retire)).setReg 21 0xE0 Off.fusLock (w32 (f.dbgLock.toNat + 2 * f.pelock.toNat))
  let s := s.setReg 21 0xE0 Off.fusLogn (w32 (f.log.length + 2 ^ 16 * f.log.countP (fun e => !e.getLsbD 6)))
  let s := (List.range 64).foldl (fun s i =>
    s.setReg 21 0xE0 (Off.fusOwnh + 4 * i) (w32 (leNat (((own (i / 8)).2.drop (4 * (i % 8))).take 4)))) s
  (List.range (min 256 f.log.length)).foldl (fun s k =>
    let e := (f.log.getD k 0).toNat
    (s.setReg 21 0xE1 (Off.fusLogLo + 8 * k) (w32 e)).setReg 21 0xE1 (Off.fusLogHi + 8 * k) (w32 (e / 2 ^ 32))) s

/-- SERIAL (R363, R384). -/
def serial : List Byte := (List.range 16).map Config.serialByte

/-- The endorsement (R363). -/
def endorsement : List Byte := (List.range 64).map Config.endorseByte

/-- A byte string laid into registers in address order (R381). -/
def State.putString (s : State) (d p o : Nat) (bs : List Byte) : State :=
  (List.range (bs.length / 4)).foldl (fun s i => s.setReg d p (o + 4 * i) (w32 (leNat ((bs.drop (4 * i)).take 4)))) s

/-- A byte string from registers in address order. -/
def State.getString (s : State) (d p o n : Nat) : List Byte := (List.range (n / 4)).flatMap (fun i => leBytes 4 (s.reg d p (o + 4 * i)).toNat)

/-! ### Registers cleared (R9, R33) -/

/-- Every register of a page at its reset value. -/
def State.clearPage (s : State) (d p : Nat) : State := { s with regs := smClear s.regs (fun k => keyDie k == d && keyPage k == p) }

/-- Every register of a die at its reset value, but those of page 0xF0, which only Safety reset covers (R424, R427). -/
def State.clearDie (s : State) (d : Nat) : State := { s with regs := smClear s.regs (fun k => keyDie k == d && keyPage k != 0xF0) }

/-- The RC registers of a page cleared. -/
def State.clearRc (s : State) (d p : Nat) (k : PageKind) : State :=
  ((pageRegs k).filter (fun r => r.rc != 0)).foldl (fun s r => (List.range r.cnt).foldl (fun s i =>
    s.setReg d p (r.off + r.stride * i) (s.reg d p (r.off + r.stride * i) &&& ~~~ (w32 r.rc))) s) s

/-- Registers at their reset values, in the block and in the shadow. -/
def State.clearRegs (s : State) (which : Nat → Bool) : State :=
  { s with regs := smClear s.regs which, shadow := smClear s.shadow which }

/-- The configuration window of a page at its reset values. -/
def State.clearWindow (s : State) (d p : Nat) : State :=
  s.clearRegs (fun k => keyDie k == d && keyPage k == p && decide (0x40 ≤ keyOff k) && decide (keyOff k < 0x800))

/-! ### Blocks stopped -/

/-- The tile queue is emptied (R146): a drain with tiles outstanding raises 0x0514 and gives no SIGNAL. -/
def State.stopTiles (s : State) (b u : Nat) : State :=
  let f := s.face b u
  let s := match f.drain with
    | some op => if nbit (lfImm op.entry.words) 6 && !op.ended && !(op.tiles.isEmpty && f.tileQ.isEmpty)
      then (s.updFace b u (fun x => { x with drain := none })).imprecise b u op.entry 0x0514 0 else s
    | none => s
  s.updFace b u (fun x => { x with tileQ := [], popped := 0 })

/-- Registers of the cores of a unit, its flags, counters, token queues and SCR cleared (R95, R97, R314). -/
def State.clearCore (s : State) (b u : Nat) : State :=
  let s := (if u = 6 then (List.range 8).map (fun k => b * 16 + 8 + k) else [b * 16 + u]).foldl (fun s k => s.updCore k (fun _ => .empty)) s
  let s := s.updFace b u (fun f => allQueues.foldl (fun f q => f.setQueue q [])
    { f with flags := 0, ctr := [], tok := [], scr := [], taskEnded := none, tag := 0 })
  if u = 6 then s.updBench b (fun x => { x with molt := .empty }) else s

/-- The operations that run for a unit are discarded with their SIGNAL (R95, R102), a GUARD that awaits its verdict among them. -/
def State.dropRunning (s : State) (b u : Nat) : State :=
  let mine := fun (j : Job) => j.issuer == u && j.kick.isNone
  let s := s.updFace b u (fun f => { f with loads := [], streams := [], drain := none, chute := [], weevil := none, loadTrack := [] })
  let s := [u, 6, 16 + u].foldl (fun s k => match s.job b k with
    | some j => if k ≥ 16 || mine j then s.setJob b k none else s
    | none => s) s
  s.updBench b (fun x => { x with
    haulQ := x.haulQ.filter (fun e => e.1 != u),
    cru := { x.cru with act := x.cru.act.filter (fun c => c.unit != u || c.guard) },
    task := x.task.map (fun t => if t.owner == u then { t with ending := none, guard := none } else t) })

/-- What the clear of a page's EN, or its reset, does to the work that runs in its block (R132, R142, R146, R183, R221, R257,
R310, R328). DEDUCED: log entry 82. -/
def State.stopBlock (s : State) (d p : Nat) : State :=
  match pageKind d p with
  | some .slb => s.stopSlab d (p - 0x20)
  | some .chu => s.stopChute d (p - 0x40)
  | some .vec => s.stopTiles d (p - 0x48)
  | some .wev => s.stopWeevil d (p - 0x50)
  | some .siv => s.stopSieve d (p - 0x58)
  | some .hlr => (s.stopHauler d (p - 0x60)).updBench d (fun x => { x with kicks := smSet (fun _ => 0) x.kicks (p - 0x60) 0 })
  | some .gal => s.stopGallery d
  | some .cru => s.stopCru d
  | some .spc => s.stopTask d
  | _ => s

/-! ### SRST (R33) -/

/-- What SRST leaves of a page's registers: LOCK, OWNER, GEN and IRQ_EN stay, with what R262 and the fuses hold in a status.
DEDUCED: log entry 82. -/
def State.softRegs (s : State) (d p : Nat) : State :=
  let keep := fun (o : Nat) => (o, s.reg d p o)
  let ks := [keep Off.owner, keep Off.gen, keep Off.irqEn, (Off.ctl, s.reg d p Off.ctl &&& 8)]
  let ks := match pageKind d p with
    | some .slb => ks ++ [keep Off.slbFbyp0, keep Off.slbFbyp1, (Off.slbGeom, s.reg d p Off.slbGeom &&& 0x70000)]
    | some .lnk => ks ++ [(Off.stat, s.reg d p Off.stat &&& 0x0F0000)]
    | some .spc => if (s.bench d).task.isSome then ks ++ [(Off.spcTstat, s.reg d p Off.spcTstat &&& 0x23F), (Off.stat, s.reg d p Off.stat &&& 0x30000)] else ks
    | _ => ks
  let s := ks.foldl (fun s x => s.setReg d p x.1 x.2) (s.clearPage d p)
  let s := match pageKind d p with
    | some .slb => s.setFld d p Off.slbGeom 0 8 (128 - 2 * (popCount 32 (s.reg d p Off.slbFbyp0).toNat + popCount 32 (s.reg d p Off.slbFbyp1).toNat))
    | some .hbm => s.showRepairs d (p - 0x74)
    | some .fusStat | some .fusLog => s.showFuses
    | some .carId => (s.putString 21 0x10 Off.carSerial serial).putString 21 0x10 Off.carEndorse endorsement
    | _ => s
  s.noteIrq d p

/-- A write of CTL.SRST (R33): the registers first, then the block, which records what it stopped. DEDUCED: log entry 82. -/
def State.softReset (s : State) (d p : Nat) : State :=
  let s := s.softRegs d p
  match pageKind d p with
  | some .fcc => ((s.dropRunning d (p - 0x10)).clearCore d (p - 0x10)).bootCore d (p - 0x10)
  | some .mlt => ((s.dropRunning d 6).clearCore d 6).bootCore d 6
  | some .slb => ((s.stopBlock d p).zeroSlab d (p - 0x20)).untrack d (p - 0x20)
  | some .vec => (s.stopBlock d p).updFace d (p - 0x48) (fun f => { f with lfsr := 1, tilesOut := 0, oPos := 0, sPos := 0, oFull := 0, sFull := 0, deferred := [] })
  | some .xlt => s.updBench d (fun x => { x with tlb := [], invBusy := false })
  | some .gal => ((s.stopBlock d p).dropLines d).updBench d (fun x => { x with clearing := false, flushing := false, flushInv := false })
  | some .ring => { s with rings := smSet (fun _ => Ring.empty) s.rings (p - 0x20) Ring.empty }
  | some .cmdEngine => { s with rings := [], turn := (1, 0) }
  | _ => s.stopBlock d p

/-! ### Reassignment between contexts (R368) -/

/-- The context-dependent pages of a Bench (R19). -/
def contextPages : List Nat :=
  (List.range 6).flatMap (fun f => [0x10 + f, 0x40 + f, 0x48 + f, 0x50 + f, 0x58 + f]) ++ (List.range 24).map (0x20 + ·)
    ++ (List.range 7).map (0x60 + ·) ++ [0x70, 0x90, 0x98]

/-- A bit of CTL cleared, in the block and in the shadow. -/
def State.clearCtl (s : State) (d p i : Nat) : State :=
  let s := s.setFld d p Off.ctl i 1 0
  { s with shadow := smSet regReset s.shadow (regKey d p Off.ctl) (wput (smGet regReset s.shadow (regKey d p Off.ctl)) i 1 0) }

/-- CTL.EN of a page forced to 0, in the block and in the shadow, and with it the page's interrupt (R40). -/
def State.forceOff (s : State) (d p : Nat) : State := (s.clearCtl d p 0).noteIrq d p

/-- OWNER of a page, in the block and in the shadow. -/
def State.setOwner (s : State) (d p o : Nat) : State :=
  let s := s.setReg d p Off.owner (w32 o)
  { s with shadow := smSet regReset s.shadow (regKey d p Off.owner) (w32 o) }

/-- The block state of a Bench cleared (R55, R95, R131, R132, R146, R154, R183, R219, R221, R238, R310, R314), and its stores zeroed. -/
def State.clearBlocks (s : State) (b : Nat) : State :=
  let s := (List.range 24).foldl (fun s i =>
    (((s.zeroSlab b i).setReg b (0x20 + i) Off.slbStrm 0).setReg b (0x20 + i) Off.slbPar 0).setReg b (0x20 + i) Off.slbParcnt 0) s
  let s := (List.range 6).foldl (fun s u =>
    let s := (s.clearCore b u).clearCtl b (ctlPage u) 16
    let s := ((s.bootCore b u).clearRegion 5 b u).clearRegion 4 b u
    let s := (s.clearRegion 6 b u).updFace b u (fun f =>
      { f with lfsr := 1, deferred := [], inbox := [], loads := [], streams := [], drain := none, chute := [], weevil := none, loadTrack := [] })
    let s := ((s.clearRc b (0x50 + u) .wev).clearWindow b (0x50 + u)).clearRc b (0x58 + u) .siv
    (s.clearWindow b (0x58 + u)).clearRc b (0x60 + u) .hlr) s
  let slots := fun (k : Nat) => keyDie k == b && decide (0x60 ≤ keyPage k) && decide (keyPage k ≤ 0x66) && decide (Off.hlrCfg ≤ keyOff k)
    && decide (keyOff k < Off.hlrSlot + 1024)
  let s := (s.clearRegs slots).updBench b (fun x => { x with kicks := [] })
  let s := s.clearRc b 0x66 .hlr
  let s := ((s.clearCore b 6).bootCore b 6).setReg b 0x90 Off.mltAflags 0
  let s := (s.clearRegion 5 b 6).clearRegion 4 b 6
  let s := (s.xltInvalidate b).updBench b (fun x => { x with tlb := [], invBusy := false })
  let s := ((s.clearRegion 3 b 0).setReg b 0x70 Off.galRtpeak 0).clearRc b 0x70 .gal
  s.setReg b 0x88 Off.cruAflags 0

/-- A Bench changes context (R368): its open task, its collectives and its running operations end as the clear of EN gives,
dirty lines are written back under the outgoing keys, every context-dependent page is disabled and changes owner, and the
blocks are cleared. -/
def State.changeContext (s : State) (b c : Nat) : State :=
  let s := ((List.range 7).foldl (fun s u => s.quiesceUnit b u true) ((s.stopTask b).dropTask b)).stopCru b
  let s := (s.writeBackAll b).dropLines b
  let s := contextPages.foldl (fun s p => ((s.stopBlock b p).forceOff b p).setOwner b p (if c = 0 then 0 else 1)) s
  (s.clearBlocks b).setFld 21 0x20 (Off.carBown + 4 * (b / 4)) (8 * (b % 4)) 8 c

/-! ### Resets of dies (R424) -/

/-- The links of a die go to the state that their reset leaves: DOWN, NOPARTNER or RETIRED (R262). -/
def State.resetPorts (s : State) (d : Nat) : State :=
  (allPorts.filter (fun x => x.1 == d)).foldl (fun s x =>
    let s := s.updPort d x.2 (fun _ => .empty)
    match partner d x.2 with
    | none => s.setLstate d x.2 5
    | some (e, q) =>
      if (d < 16 && s.isRetired d) || (e < 16 && s.isRetired e) then s.setLstate d x.2 6
      else if s.lstate e q = 6 then s else s.setLstate e q 0) s

/-- Bench reset (R424): its pages, stores, cores and blocks; it belongs to context 0, and stays fenced if it was (R285). -/
def State.resetBench (s : State) (b : Nat) : State :=
  let fenced := (s.bench b).fenced
  let s := s.clearDie b
  let s := { s with shadow := smClear s.shadow (fun k => keyDie k == b && keyPage k != 0xF0) }
  let s := { s with cores := smClear s.cores (fun k => k / 16 == b), faces := smClear s.faces (fun k => k / 8 == b),
                    slabs := smClear s.slabs (fun k => k / 32 == b), dieNum := smClear s.dieNum (fun k => k == b),
                    path := { s.path with forwarded := s.path.forwarded.filter (fun w => keyDie w.key != b),
                                          held := s.path.held.filter (fun w => keyDie w.key != b) } }
  let s := s.updBench b (fun _ => { Bench.empty with fenced := fenced, braked := s.safety.brake })
  let s := { s with mem := smClear s.mem (fun l => locDie l == b && decide (3 ≤ locRegion l) && decide (locRegion l ≤ 6)) }
  let s := (List.range 24).foldl (fun s i => s.loadColumns b i) s
  let s := (s.loadLanes b 0).loadLanes b 1
  ((s.resetPorts b).noteDie b).setFld 21 0x20 (Off.carBown + 4 * (b / 4)) (8 * (b % 4)) 8 0

/-- Stockpile reset (R424). -/
def State.resetStockpile (s : State) (d : Nat) : State :=
  let s := s.clearDie d
  let s := { s with shadow := smClear s.shadow (fun k => keyDie k == d && keyPage k != 0xF0), dieNum := smClear s.dieNum (fun k => k == d),
                    path := { s.path with forwarded := s.path.forwarded.filter (fun w => keyDie w.key != d),
                                          held := s.path.held.filter (fun w => keyDie w.key != d) } }
  (s.resetPorts d).noteDie d

/-- Weighbridge reset (R353, R396, R424): die 20, its rings and commands, the boot and every shadow; the built-in policy applies. -/
def State.resetWeighbridge (s : State) : State :=
  let s := s.clearDie 20
  let s := { s with shadow := [], path := ⟨[], [], [], 0, none⟩, readData := [], rings := [], turn := (1, 0), fm := ⟨[], 0⟩,
                    boot := { Boot.empty with linkUp := s.boot.linkUp, rom := s.boot.rom, drbg := s.boot.drbg },
                    fabric := [], ports := [] }
  { s with mem := smClear s.mem (fun l => decide (7 ≤ locRegion l)), dieNum := [] }

/-- A column bypass record added (R376, R379): ARG0 names die, Slab and pair. -/
def Fuses.addBypass (f : Fuses) (a : Nat) (valid : Bool) : Fuses :=
  let k := fld a 0 5 * 32 + fld a 8 5
  let l := smGet (fun _ => []) f.colByp k ++ [(fld a 16 6, valid)]
  { f with colByp := smSet (fun _ => []) f.colByp k l }

/-- An HBM repair record added (R376, R379): ARG0 names die, stack, channel, lane and spare. -/
def Fuses.addRepair (f : Fuses) (a : Nat) (valid : Bool) : Fuses :=
  let k := fld a 0 5 * 2 + fld a 8 1
  let l := smGet (fun _ => []) f.hbmRep k ++ [(fld a 12 4, fld a 16 8, fld a 24 1, valid)]
  { f with hbmRep := smSet (fun _ => []) f.hbmRep k l }

/-- A fuse change that power or a reset cut short (R378): its log entry keeps DONE = 0 and its share of the limit.
DESIGN CHOICE: log entry 84. -/
def State.abandonFuses (s : State) : State :=
  match s.carapace.mail with
  | some m =>
    if !s.carapace.fusing then s
    else
      let f := s.fuses
      let begun := Config.fuseBegun s.fresh
      let a := m.arg0
      let f := match m.op with
        | 1 => { f with svn := f.svn + Config.bitsBlown s.fresh % (a - f.svn + 1) }
        | 2 => { f with owners := smSet (fun _ => (0, [])) f.owners a (2, []) }
        | 3 => if begun then { f with owners := smSet (fun _ => (0, [])) f.owners a (2, (smGet (fun _ => (0, [])) f.owners a).2) } else f
        | 4 => if begun then { f with retire := f.retire ||| 2 ^ a } else f
        | 5 => f.addBypass a false
        | 6 => f.addRepair a false
        | 7 => if begun then { f with pelock := true } else f
        | _ => f
      { s with fuses := f, carapace := { s.carapace with fusing := false } }.draw
  | none => s

/-- The key of a context is drawn anew, or erased: lines under the earlier key decrypt no more (R247, R362, R365).
PRESUMED: log entry 52. -/
def State.newKey (s : State) (t : Nat) : State := { s with keyGen := smSet (fun _ => 0) s.keyGen t (s.fresh + 1) }.draw

/-- The keys of every tenant context are erased (R362, R424): lines written under them decrypt under no later key.
PRESUMED: log entry 52. -/
def State.eraseKeys (s : State) : State := (List.range 64).foldl (fun s c => s.newKey (c + 1)) s

/-- Carapace reset (R363, R375, R384, R424). -/
def State.resetCarapace (s : State) : State :=
  let s := (s.abandonFuses.eraseKeys).clearDie 21
  let s := { s with carapace := ⟨[], none, false⟩, shadow := smClear s.shadow (fun k => keyDie k == 21) }
  ((s.showFuses.putString 21 0x10 Off.carSerial serial).putString 21 0x10 Off.carEndorse endorsement).noteDie 21

/-- Safety reset (R424, R427): the SAF_ pages, the clock and power views, and the fault log. -/
def State.resetSafety (s : State) : State :=
  { s with regs := smClear s.regs (fun k => keyDie k == 22 || keyPage k == 0xF0),
           shadow := smClear s.shadow (fun k => keyDie k == 22 || keyPage k == 0xF0), safety := .empty }.noteDie 22

end Sys2Proof.Machine
end

