-- ==== Sys2Proof/Machine/Command.lean ====
section
/-!
DEFINITION. The command engine (R341 to R359): doorbells, fetching, the header checks, starting and completing commands, and the
commands NOP, WRITE, READ, CODE, RUN, SIGNAL and TIMESNAP. A host read answers with the bytes that the command row carries.
-/

namespace Sys2Proof.Machine

/-! ### The PCI Express endpoint (R333 to R335, R339) -/

/-- The capability structures of the function (R333). -/
inductive PciCapability where
  | pciExpress
  | powerManagement
  | msiX
  | aer
  | secondaryPciExpress
  | physicalLayer16
  | physicalLayer32
  | laneMargining
  | dataLinkFeature
  deriving DecidableEq, Repr

/-- What the one physical function is, as its configuration space tells the host. -/
structure Endpoint where
  classCode : Nat
  deviceId : Nat
  bar0Size : Nat
  bar2Size : Nat
  interruptPin : Nat
  vectors : Nat
  aerMessage : Nat
  maxOutstanding : Nat
  maxPayload : Nat
  maxReadRequest : Nat
  readSize : Nat
  capabilities : List PciCapability
  deriving DecidableEq, Repr

/-- The panel's function. No command of the table reads its configuration space. PRESUMED: log entry 16. -/
def endpoint : Endpoint :=
  { classCode := 0x120000, deviceId := 0x1600, bar0Size := 0x4000000, bar2Size := 0x100000, interruptPin := 0, vectors := 128,
    aerMessage := 88, maxOutstanding := 512, maxPayload := 512, maxReadRequest := 4096, readSize := 512,
    capabilities := [.pciExpress, .powerManagement, .msiX, .aer, .secondaryPciExpress, .physicalLayer16, .physicalLayer32,
                     .laneMargining, .dataLinkFeature] }

/-! ### Rings (R341 to R344) -/

/-- The page of a ring. -/
def ringPage (n : Nat) : Nat := 0x20 + n

/-- A ring's state. -/
def State.ring (s : State) (n : Nat) : Ring := smGet (fun _ => Ring.empty) s.rings n

/-- A ring's state changed. -/
def State.updRing (s : State) (n : Nat) (f : Ring → Ring) : State :=
  { s with rings := smSet (fun _ => Ring.empty) s.rings n (f (s.ring n)) }

/-- A register of a ring page as a number. -/
def State.rg (s : State) (n o : Nat) : Nat := (s.reg 20 (ringPage n) o).toNat

/-- Units of a submission ring, 2^(LOG2SZ − 6). -/
def State.sqUnits (s : State) (n : Nat) : Nat := 2 ^ (fld (s.rg n Off.cmdSqcfg) 0 5) / 64

/-- Units of a completion ring. -/
def State.cqUnits (s : State) (n : Nat) : Nat := 2 ^ (fld (s.rg n Off.cmdCqcfg) 0 5) / 64

/-- How far count `a` is ahead of count `b`, modulo 2^32. -/
def ahead (a b : Nat) : Nat := (a + 2 ^ 32 - b) % 2 ^ 32

/-- The ring is halted (R348). -/
def State.ringHalted (s : State) (n : Nat) : Bool := wbit (s.reg 20 (ringPage n) Off.stat) 16

/-- A ring error recorded (R359). -/
def State.ringErr (s : State) (n code : Nat) : State := s.recordFirst 20 (ringPage n) Off.cmdErr code

/-- The ring halts (R348): it stops fetching. -/
def State.haltRing (s : State) (n code : Nat) : State :=
  let s := (s.ringErr n code).updRing n (fun r => { r with phase := 0 })
  let s := s.setFld 20 0x10 (Off.cmdHalt + 4 * (n / 32)) (n % 32) 1 1
  (s.setFld 20 (ringPage n) Off.stat 16 1 1).raise 20 (ringPage n) 0x10000

/-- The writeback block written (R344). -/
def State.writeback (s : State) (n : Nat) : State :=
  { s with hostOut := s.hostOut ++ [.write (s.rg n Off.cmdWbLo + s.rg n Off.cmdWbHi * 2 ^ 32)
    (leBytes 4 (s.rg n Off.cmdSqhead) ++ leBytes 4 (s.rg n Off.cmdCqtail) ++ List.replicate 8 0)] }

/-- A write that the Weighbridge drops (R27, R342, R396), in the log of R356. -/
def State.logDrop (s : State) (a : Agent) (bar off code : Nat) : State :=
  let first := !wbit (s.reg 20 2 Off.wbgDwlog) 31
  let s := s.recordFirst 20 2 Off.wbgDwlog (agentNum a * 2 ^ 18 + bar * 2 ^ 16 + code)
  let s := if first then s.setReg 20 2 Off.wbgDwaddr (w32 off) else s
  s.bump 20 2 Off.wbgDwcnt 1

/-- A doorbell acts (R342): the ring's page is enabled and no check of it is pending. -/
def State.bellOk (s : State) (n : Nat) : Bool :=
  s.en 20 (ringPage n) && !wbit (smGet regReset s.shadow (regKey 20 (ringPage n) Off.stat)) 4

/-! ### The header (R347, R348) -/

/-- A little-endian field of a header. -/
def hf (h : List Byte) (o n : Nat) : Nat := leNat ((h.drop o).take n)

/-- TYPE. -/
def hType (h : List Byte) : Nat := hf h 1 1
/-- PLEN. -/
def hPlen (h : List Byte) : Nat := hf h 0x10 4
/-- BENCH. -/
def hBench (h : List Byte) : Nat := hf h 0x14 2
/-- A field of ARG. -/
def hArg (h : List Byte) (o n : Nat) : Nat := hf h (0x18 + o) n
/-- The anchor Bench (R349). -/
def hAnchor (h : List Byte) : Nat := ((bitList 16 (hBench h)).head?).getD 0
/-- NONCE. -/
def hNonce (h : List Byte) : List Byte := (h.drop 0x24).take 12
/-- The counter of NONCE. -/
def hCounter (h : List Byte) : Nat := hf h 0x28 8

/-- The units of a packet. -/
def hUnits (h : List Byte) : Nat := 1 + ceilDiv (hPlen h) 64

/-- The types of R349. -/
def knownType (t : Nat) : Bool := (decide (1 ≤ t) && decide (t ≤ 7)) || (decide (0x10 ≤ t) && decide (t ≤ 0x14)) || (decide (0x18 ≤ t) && decide (t ≤ 0x1A))

/-- A type that carries no NONCE and TAG on a tenant ring: KEYX and QUOTE (R349). -/
def plainType (t : Nat) : Bool := t == 0x18 || t == 0x19

/-- Step 6 of R348: a reserved field is not 0, ARG is misused, or PLEN is not allowed for the TYPE. DEDUCED: log entry 81. -/
def argBad (h : List Byte) : Bool :=
  let t := hType h
  let p := hPlen h
  let a := hArg h
  let zero := fun o n => a o n == 0
  let bench0 := hBench h == 0
  let ok := match t with
    | 0x01 => p == 0 && zero 0 12
    | 0x02 => decide (1 ≤ p) && zero 8 4
    | 0x03 => p == 0 && decide (1 ≤ a 8 4) && decide (a 8 4 ≤ 262144)
    | 0x04 => p % 64 == 0 && decide (p ≤ 131072) && decide (a 0 1 < 128) && decide (a 1 1 ≤ 1) && zero 2 2 && a 4 4 % 64 == 0
        && decide (a 4 4 + p ≤ 131072) && zero 8 4
    | 0x05 => p == 0 && decide (a 0 1 < 128) && decide (a 1 1 ≤ 3) && zero 2 2 && a 4 4 % 4 == 0 && decide (a 4 4 < 131072) && zero 8 4
    | 0x06 => p == 0 && zero 4 8 && bench0
    | 0x07 => p == 0 && zero 0 12
    | 0x10 => p == 0 && decide (a 1 1 ≤ 1) && zero 2 10 && bench0
    | 0x11 => p == 0 && zero 1 1 && zero 4 8 && bench0
    | 0x12 | 0x13 | 0x14 => p == 0 && zero 1 11 && bench0
    | 0x18 => p == 160 && zero 0 12
    | 0x19 => p == 32 && zero 0 12
    | _ => p == 0
  hf h 2 2 ≥ 8 || hf h 5 3 != 0 || hf h 0x16 2 != 0 || !ok

/-- Step 7 of R348: ENC, NONCE or TAG against R347 or the ENC column of R349. -/
def encBad (n : Nat) (h : List Byte) : Bool :=
  let t := hType h
  let enc := nbit (hf h 2 2) 0
  let plain := (h.drop 0x24).any (· != 0)
  if n = 0 then enc || plain
  else (enc != (t == 0x02 || t == 0x04)) || (plainType t && plain)

/-- The state of a context (R364, R386). -/
def State.ctxState (s : State) (c : Nat) : Nat := s.rfld 21 0x20 (Off.carCstate + 4 * (c / 8)) (4 * (c % 8)) 2

/-- The last accepted host nonce counter of a ring. -/
def State.lastNonce (s : State) (n : Nat) : Nat := s.rg n Off.cmdNctrLo + s.rg n Off.cmdNctrHi * 2 ^ 32

/-- The header checks of R348, steps 1 to 10: the code of the first fault, or 0. DEDUCED: log entries 76, 81. -/
def State.headerCode (s : State) (n : Nat) (h : List Byte) : Nat :=
  let t := hType h
  let tenantOnly := t == 0x18 || t == 0x1A
  let op0 := t == 0x07 || (decide (0x10 ≤ t) && decide (t ≤ 0x14))
  let needs := decide (1 ≤ t) && decide (t ≤ 6) || t == 0x1A
  let needsBench := (decide (2 ≤ t) && decide (t ≤ 5)) || t == 0x1A
  if hf h 0 1 ≠ 1 then 0x0D01
  else if 262144 < hPlen h then 0x0D05
  else if !knownType t then 0x0D02
  else if (n = 0 && tenantOnly) || (n ≠ 0 && op0) then 0x0D03
  else if hf h 4 1 ≠ n then 0x0D04
  else if argBad h then 0x0D0A
  else if encBad n h then 0x0D06
  else if n ≠ 0 && needs && s.ctxState n ≠ 2 then 0x0D0B
  else if (needsBench && hBench h = 0) || (bitList 16 (hBench h)).any (fun b => s.benchCtx b ≠ n || s.isRetired b) then 0x0D09
  else if n ≠ 0 && !plainType t && (hf h 0x24 4 ≠ 1 || hCounter h ≤ s.lastNonce n) then 0x0D07
  else 0

/-! ### Contexts' keys -/

/-- What is held for a context. -/
def State.ctxKeys (s : State) (c : Nat) : CtxKeys := smGet (fun _ => CtxKeys.empty) s.carapace.ctx c

/-- What is held for a context changed. -/
def State.updCtx (s : State) (c : Nat) (f : CtxKeys → CtxKeys) : State :=
  { s with carapace := { s.carapace with ctx := smSet (fun _ => CtxKeys.empty) s.carapace.ctx c (f (s.ctxKeys c)) } }

/-! ### Starting and ending commands (R345, R346, R351, R352) -/

/-- The counter of a die (R352). -/
def State.dieTime (s : State) (d : Nat) : Nat :=
  if d < 16 then (s.bench d).cycle
  else if d < 20 then (s.reg d 0 Off.stkTimeLo).toNat + (s.reg d 0 Off.stkTimeHi).toNat * 2 ^ 32
  else (s.reg 20 0 Off.wbgTimeLo).toNat + (s.reg 20 0 Off.wbgTimeHi).toNat * 2 ^ 32

/-- The end of a command, with TS sampled from its DIE. -/
def State.ending (s : State) (status die code info : Nat) (payload : List Byte) : CmdEnd := ⟨status, die, code, info, s.dieTime die, payload⟩

/-- Commands in flight on the engine. -/
def State.inFlight (s : State) : Nat := s.rings.foldl (fun n r => n + r.2.run.length) 0

/-- The bytes of completion payload that a command may need (R345). DEDUCED: log entry 77. -/
def replySize (h : List Byte) : Nat :=
  match hType h with
  | 0x03 => hArg h 8 4
  | 0x05 => 8 * popCount 16 (hBench h) * popCount 7 (hArg h 0 1)
  | 0x07 => 184
  | 0x18 => 160
  | 0x19 => 368
  | 0x1A => if hArg h 8 4 ≤ 262048 then 96 + hArg h 8 4 else 0
  | _ => 0

/-- The units of completion space that a packet reserves; a refused one takes only its header. DEDUCED: log entry 77. -/
def replyUnits (p : CmdPacket) : Nat := if p.code = 0 then 1 + ceilDiv (replySize p.header) 64 else 1

/-- A packet may start (R345). -/
def State.mayStart (s : State) (n : Nat) (p : CmdPacket) : Bool :=
  let r := s.ring n
  decide (s.inFlight < s.rfld 20 0x10 Off.cmdCfg 0 10) && decide (r.run.length < 64)
    && decide (ahead r.reserved (s.rg n Off.cmdCqhead) + replyUnits p ≤ s.cqUnits n) && (!nbit (hf p.header 2 2) 2 || r.run.isEmpty)

/-- The free slot of a ring. -/
def Ring.freeSlot (r : Ring) : Nat := ((List.range 64).find? (fun i => r.run.all (fun c => c.slot != i))).getD 0

/-- A packet starts: its completion space is reserved. -/
def State.beginCmd (s : State) (n : Nat) (p : CmdPacket) (e : Option CmdEnd) : State :=
  let r := s.ring n
  let c : Cmd := ⟨r.freeSlot, p.header, r.reserved, replyUnits p, e, false, false, 0, [], [], []⟩
  s.updRing n (fun r => { r with ready := r.ready.drop 1, run := r.run ++ [c], reserved := (r.reserved + replyUnits p) % 4294967296 })

/-- The end that a refused packet's completion shows (R348, R351). -/
def State.refusedEnd (s : State) (code : Nat) : CmdEnd := s.ending (if code = 0x0D08 then 2 else 1) 20 code 0 []

/-- Refused packets at the head of a ring take their completion space as soon as they may (R345, R348); one of steps 1 and 2 halts
the ring. `fuel` bounds the packets. DEDUCED: log entry 78. -/
def State.startRefused (n : Nat) : Nat → State → State
  | 0, s => s
  | f + 1, s =>
    match (s.ring n).ready with
    | p :: _ =>
      if p.code ≠ 0 && s.mayStart n p then
        let e := if p.code = 0x0D51 then s.ending 6 20 0x0D51 0 [] else s.refusedEnd p.code
        State.startRefused n f (s.beginCmd n p (some e))
      else s
    | [] => s

/-- A command of a ring changed. -/
def State.updCmd (s : State) (n slot : Nat) (f : Cmd → Cmd) : State :=
  s.updRing n (fun r => { r with run := r.run.map (fun c => if c.slot == slot then f c else c) })

/-- A command ends, if it has not ended (R351). -/
def State.endCmd (s : State) (n slot : Nat) (e : CmdEnd) : State :=
  let dead : CmdEnd := { e with status := 6, die := 20, code := 0x0D51, info := 0, payload := [] }
  s.updCmd n slot (fun c => match c.ended with
    | none => { c with ended := some (if c.aborting then dead else e) }
    | some _ => c)

/-- The row of a command starts the packet at the head of the ring, where that is of its TYPE and may start (R345, R353): `eff` is
given the state, the slot, the header and the payload. -/
def State.startCmd (s : State) (n ty : Nat) (eff : State → Nat → List Byte → List Byte → State) : State :=
  match (s.ring n).ready with
  | p :: _ =>
    if p.code = 0 && hType p.header = ty && s.mayStart n p then
      eff (s.beginCmd n p none) (s.ring n).freeSlot p.header p.payload
    else s
  | [] => s

/-! ### Fetching (R343) -/

/-- The SQ head passes a packet, and the writeback block is written (R343, R344). DEDUCED: log entry 81. -/
def State.passPacket (s : State) (n : Nat) (h : List Byte) : State :=
  (s.setReg 20 (ringPage n) Off.cmdSqhead (w32 (s.rg n Off.cmdSqhead + hUnits h))).writeback n

/-- A packet that has been read joins its ring, and refused ones start. -/
def State.stagePacket (s : State) (n : Nat) (h payload : List Byte) (code : Nat) : State :=
  let s := (s.passPacket n h).updRing n (fun r => { r with phase := 0, header := [], code := 0, ready := r.ready ++ [⟨h, payload, code⟩] })
  State.startRefused n 64 s

/-- The tag of a tenant packet verifies (R347). DEDUCED: log entry 76. -/
def State.tagOk (s : State) (n : Nat) (h cipher : List Byte) : Bool :=
  gcmTag (s.ctxKeys n).sessKey (hNonce h) (h.take 0x24) cipher == (h.drop 0x30).take 16

/-- A whole packet is authenticated and decrypted (R343, R347, R348): a tenant packet that carries a tag either advances the
accepted counter or is refused with 0x0D08. DEDUCED: log entry 76. -/
def State.openPacket (s : State) (n : Nat) (h text : List Byte) : State :=
  if n = 0 || plainType (hType h) then s.stagePacket n h text 0
  else if !s.tagOk n h text then s.stagePacket n h [] 0x0D08
  else
    let c := hCounter h
    let s := (s.setReg 20 (ringPage n) Off.cmdNctrLo (w32 c)).setReg 20 (ringPage n) Off.cmdNctrHi (w32 (c / 2 ^ 32))
    s.stagePacket n h (if nbit (hf h 2 2) 0 then gcmCrypt (s.ctxKeys n).sessKey (hNonce h) text else text) 0

/-- Staging in use (R343). -/
def State.stagedBytes (s : State) : Nat :=
  s.rings.foldl (fun n r => n + (if r.2.phase = 3 then hPlen r.2.header else 0) + (r.2.ready.map (fun p => p.payload.length)).sum) 0

/-- The host reads that bring `n` bytes of a ring of `size` bytes at `base`, from byte `a` on and past its end to its base (R333,
R341): each ends at a 512-byte boundary, so that none is longer. PRESUMED: log entry 16. -/
def ringReads (base size a n : Nat) : List (Nat × Nat) :=
  let r := endpoint.readSize
  (List.range (ceilDiv (a % r + n) r)).map (fun i =>
    let start := max a (a / r * r + r * i)
    (base + start % max 1 size, min (a + n) (a / r * r + r * (i + 1)) - start))

/-- The host reads that a packet's units from `u` on take, `n` of them past the SQ head. -/
def State.unitReads (s : State) (n first units : Nat) : List (Nat × Nat) :=
  ringReads (s.rg n Off.cmdSqbaseLo + s.rg n Off.cmdSqbaseHi * 2 ^ 32) (64 * s.sqUnits n)
    (64 * ((s.rg n Off.cmdSqhead + first) % max 1 (s.sqUnits n))) (64 * units)

/-- The host reads that a payload takes, and how many of them are outstanding together (R333). -/
def State.payloadReads (s : State) (n : Nat) (h : List Byte) : List (Nat × Nat) := s.unitReads n 1 (hUnits h - 1)

/-- Host reads outstanding at once, never above 512 (R333). -/
def readsHeld (l : List (Nat × Nat)) : Nat := min endpoint.maxOutstanding l.length

/-- The host reads that are outstanding, as WBG_RDPEND shows: those of the rings whose fetch waits for them (R355). -/
def State.readsOut (s : State) : Nat :=
  (s.rings.map (fun x => if x.2.phase = 1 then 1 else if x.2.phase = 3 then readsHeld (s.payloadReads x.1 x.2.header) else 0)).sum

/-- The engine may have more reads outstanding (R333). DEDUCED: log entry 78. -/
def State.readsFit (s : State) (l : List (Nat × Nat)) : Bool := decide (s.readsOut + readsHeld l ≤ endpoint.maxOutstanding)

/-- Host reads go out (R336). DEDUCED: log entry 78. -/
def State.issueReads (s : State) (l : List (Nat × Nat)) : State := { s with hostOut := s.hostOut ++ l.map (fun x => .read x.1 x.2) }

/-- The fetch goes on after the header check (R343): a packet waits until its units lie below the tail, its payload has room and its reads may go out;
a refused one is skipped. DEDUCED: log entry 78. -/
def State.goOnFetch (s : State) (n : Nat) : State :=
  let r := s.ring n
  let h := r.header
  if r.phase ≠ 2 || ahead (s.rg n Off.cmdSqtail) (s.rg n Off.cmdSqhead) < hUnits h then s
  else if r.code ≠ 0 then s.stagePacket n h [] r.code
  else if hPlen h = 0 then s.openPacket n h []
  else if 2 ^ 21 < s.stagedBytes + hPlen h || !s.readsFit (s.payloadReads n h) then s
  else (s.issueReads (s.payloadReads n h)).updRing n (fun r => { r with phase := 3 })

/-- Every fetch that waits for its units or for staging goes on if it can. -/
def State.goOnAll (s : State) : State := (List.range 65).foldl (fun s n => (State.startRefused n 64 s).goOnFetch n) s

/-- A write of SQ_TAIL (R342). -/
def State.tailBell (s : State) (n : Nat) (count : Word) : State :=
  if !s.bellOk n then s.logDrop .host 2 (0x1000 * n) 0x0D30
  else if count.toNat = s.rg n Off.cmdSqtail then s
  else if s.sqUnits n < ahead count.toNat (s.rg n Off.cmdSqhead) then s.haltRing n 0x0D31
  else (s.setReg 20 (ringPage n) Off.cmdSqtail count).goOnFetch n

/-- SQ_TAIL (R342). -/
def execSqTail (ring : RingId) (count : Word) (s : State) : Host.Outcome State Fault Refusal := .next (s.tailBell ring.val count)

/-- A write of CQ_HEAD (R342). -/
def State.headBell (s : State) (n : Nat) (count : Word) : State :=
  let old := s.rg n Off.cmdCqhead
  if !s.bellOk n then s.logDrop .host 2 (0x1000 * n + 4) 0x0D30
  else if count.toNat = old then s
  else if ahead (s.rg n Off.cmdCqtail) old < ahead count.toNat old then s.ringErr n 0x0D32
  else (State.startRefused n 64 (s.setReg 20 (ringPage n) Off.cmdCqhead count)).goOnFetch n

/-- CQ_HEAD (R342). -/
def execCqHead (ring : RingId) (count : Word) (s : State) : Host.Outcome State Fault Refusal := .next (s.headBell ring.val count)

/-- A ring that can fetch (R343, R348, R353). -/
def State.canFetch (s : State) (n : Nat) : Bool :=
  s.readsFit (s.unitReads n 0 1) && s.en 20 (ringPage n) && !s.qsc 20 (ringPage n) && !s.ringHalted n && (s.ring n).phase == 0
    && s.rg n Off.cmdSqtail != s.rg n Off.cmdSqhead

/-- COMMAND_FETCH (R343): ring 0 first, the others by weighted round robin; the header is read. -/
def execCommandFetch (s : State) : Host.Outcome State Fault Refusal :=
  let read := fun (s : State) (n : Nat) => (s.issueReads (s.unitReads n 0 1)).updRing n (fun r => { r with phase := 1 })
  .next (if s.canFetch 0 then read s 0
    else if 0 < s.turn.2 && s.canFetch s.turn.1 then read { s with turn := (s.turn.1, s.turn.2 - 1) } s.turn.1
    else match ((List.range 64).map (fun i => (s.turn.1 + i) % 64 + 1)).find? s.canFetch with
      | some n => read { s with turn := (n, fld (s.rg n Off.cmdSqcfg) 8 8 - 1) } n
      | none => s)

/-- HOST_READ_COMPLETION (R343, R347, R348): a header of 64 bytes is checked; the units of a payload are authenticated and
decrypted. Bytes of another length answer no read. -/
def execHostReadCompletion (ring : RingId) (data : List Byte) (s : State) : Host.Outcome State Fault Refusal :=
  let n := ring.val
  let r := s.ring n
  .next (if r.phase = 1 && data.length = 64 then
      let code := s.headerCode n data
      if code = 0x0D01 || code = 0x0D05 then
        let s := s.updRing n (fun r => { r with phase := 0, ready := r.ready ++ [⟨data, [], code⟩] })
        ((State.startRefused n 64 s).haltRing n code).goOnAll
      else (s.updRing n (fun r => { r with phase := 2, header := data, code := code })).goOnAll
    else if r.phase = 3 && data.length = 64 * ceilDiv (hPlen r.header) 64 then
      (s.openPacket n r.header (data.take (hPlen r.header))).goOnAll
    else s)

/-- An uncorrectable PCIe error (R339, R355): counted, and the AER vector goes out.
PRESUMED: log entry 16. DESIGN CHOICE: log entry 102. -/
def State.aerError (s : State) : State := (s.bump 20 1 Off.wbgAerUe 1).sendVector endpoint.aerMessage

/-- What a failed read is to AER (R339, R355): poisoned data, an ECRC error and a missing completion are errors that the panel detects,
Unsupported Request and Completer Abort come from the completer. PRESUMED: log entry 16. -/
def State.readError (s : State) : ReadFailure → State
  | .unsupported => s
  | .aborted => s
  | .poisoned => s.aerError
  | .ecrc => (s.bump 20 1 Off.wbgEcrc 1).aerError
  | .timedOut => s.aerError

/-- HOST_READ_TIMEOUT (R359). DEDUCED: log entry 6. -/
def execHostReadTimeout (ring : RingId) (failure : ReadFailure) (s : State) : Host.Outcome State Fault Refusal :=
  let n := ring.val
  let code := if failure = .timedOut then 0x0D41 else 0x0D40
  .next (if (s.ring n).phase = 1 || (s.ring n).phase = 3 then
      (((s.readError failure).recordFirst 20 1 Off.wbgHosterr (n * 2 ^ 16 + code)).haltRing n code).goOnAll
    else s)

/-! ### Completions (R346, R347) -/

/-- Bytes written into a completion ring from a unit on, past its end to its base (R341). -/
def State.writeCq (s : State) (n place : Nat) (bs : List Byte) : State :=
  let base := s.rg n Off.cmdCqbaseLo + s.rg n Off.cmdCqbaseHi * 2 ^ 32
  let size := 64 * s.cqUnits n
  let at0 := 64 * (place % max 1 (s.cqUnits n))
  let fits := size - at0
  let ev := HostEvent.write (base + at0) (bs.take fits)
  { s with hostOut := s.hostOut ++ (if bs.length ≤ fits then [ev] else [ev, .write base (bs.drop fits)]) }

/-- The completion packet of a command (R347). On a tenant ring with a session, all but KEYX and QUOTE carry the panel's counter
and a tag, and READ carries its data encrypted. DEDUCED: log entry 77. -/
def State.completion (s : State) (n : Nat) (c : Cmd) (e : CmdEnd) : List Byte × State :=
  let h := c.header
  let room := 64 * (c.units - 1)
  let size := if e.payload.isEmpty then (if c.units = 1 then 0 else replySize h) else e.payload.length
  let text := padTo size 0 e.payload
  let head := [1, BitVec.ofNat 8 (hType h ||| 0x80)] ++ leBytes 2 (hf h 2 2 % 4) ++ [BitVec.ofNat 8 n, 0, 0, 0] ++ (h.drop 8).take 8
    ++ leBytes 4 size ++ [BitVec.ofNat 8 e.status, BitVec.ofNat 8 e.die] ++ leBytes 2 e.code ++ leBytes 8 e.ts ++ leBytes 4 e.info
  if n = 0 || !(s.ctxKeys n).session || plainType (hType h) then (head ++ List.replicate 28 0 ++ padTo room 0 text, s)
  else
    let s := s.updCtx n (fun k => { k with panelCtr := k.panelCtr + 1 })
    let k := s.ctxKeys n
    let iv := leBytes 4 2 ++ leBytes 8 k.panelCtr
    let secret := hType h == 0x03
    let body := if secret then gcmCrypt k.sessKey iv text else text
    (head ++ iv ++ gcmTag k.sessKey iv head (if secret then body else []) ++ padTo room 0 body, s)

/-- The interrupt of completions that have become visible (R346). -/
def State.cqInterrupt (s : State) (n : Nat) : State :=
  let cnt := max 1 (fld (s.rg n Off.cmdCqirq) 0 8)
  if cnt ≤ (s.ring n).irqs then
    (s.updRing n (fun r => { r with irqs := 0, timing := false })).sendVector (fld (s.rg n Off.cmdCqcfg) 8 7)
  else s.updRing n (fun r => { r with timing := decide (0 < r.irqs) && decide (fld (s.rg n Off.cmdCqirq) 8 16 ≠ 0) })

/-- The CQ tail passes the completions that are filled, in start order (R346). -/
def State.advanceCq (s : State) (n : Nat) : State :=
  let done := (s.ring n).run.takeWhile (·.filled)
  let units := (done.map (·.units)).sum
  let irqs := done.countP (fun c => nbit (hf c.header 2 2) 1)
  let s := s.setReg 20 (ringPage n) Off.cmdCqtail (w32 (s.rg n Off.cmdCqtail + units))
  s.updRing n (fun r => { r with run := r.run.drop done.length, irqs := r.irqs + irqs })

/-- How a RUN ends once every Face that it names has parked with cause 1 or 3 (R349, R351). -/
def State.runEnd (s : State) (h : List Byte) : Option CmdEnd :=
  let us := (bitList 16 (hBench h)).flatMap (fun b => (bitList 7 (hArg h 0 1)).map (fun u => (b, u)))
  let stopped := fun (x : Nat × Nat) => (s.face x.1 x.2).parked && ((s.face x.1 x.2).cause == 1 || (s.face x.1 x.2).cause == 3)
  if us.all stopped then
    let pay := us.flatMap (fun x => [BitVec.ofNat 8 x.1, BitVec.ofNat 8 x.2, BitVec.ofNat 8 (s.face x.1 x.2).cause, 0]
      ++ leBytes 2 (s.face x.1 x.2).tag ++ [0, 0])
    match us.find? (fun x => (s.face x.1 x.2).cause == 3) with
    | some (b, u) =>
      let pc := (s.reg b (ctlPage u) Off.fccExcPc).toNat
      some (s.ending 4 b (s.rfld b (ctlPage u) Off.fccExc 0 16) (u + 8 * fld pc 0 17 + 2 ^ 20 * fld pc 17 1) pay)
    | none => some (s.ending 0 ((us.getLast?.map (·.1)).getD 20) 0 0 pay)
  else none

/-- COMMAND_COMPLETE (R346): a command that has ended is written into its space; completions that lie contiguously become
visible, the writeback block is written, and the vector goes out when due. -/
def execCommandComplete (ring : RingId) (k : Nat) (s : State) : Host.Outcome State Fault Refusal :=
  let n := ring.val
  .next (match (s.ring n).run[k]? with
    | none => s
    | some c =>
      let e := match c.ended with
        | some e => some e
        | none => if hType c.header = 0x05 then s.runEnd c.header else none
      match e with
      | none => s
      | some e =>
        if c.filled then s
        else
          let r := s.completion n c e
          let s := (r.2.writeCq n c.place r.1).updCmd n c.slot (fun c => { c with filled := true, ended := some e })
          (((((s.advanceCq n).writeback n).bump 20 (ringPage n) Off.cmdDone 1).cqInterrupt n).goOnAll))

/-- CQ_IRQ_COALESCE_TIMER (R346). DEDUCED: log entry 11. -/
def execCqIrqCoalesceTimer (ring : RingId) (s : State) : Host.Outcome State Fault Refusal :=
  let n := ring.val
  .next (if (s.ring n).timing then
      (s.updRing n (fun r => { r with irqs := 0, timing := false })).sendVector (fld (s.rg n Off.cmdCqcfg) 8 7)
    else s)

/-- COMMAND_TIMEOUT (R351): a started command of a ring with CMD_TOUT set ends with STATUS 7; its work goes on.
DEDUCED: log entry 11. -/
def execCommandTimeout (ring : RingId) (k : Nat) (s : State) : Host.Outcome State Fault Refusal :=
  let n := ring.val
  .next (match (s.ring n).run[k]? with
    | some c => if fld (s.rg n Off.cmdTout) 0 16 = 0 then s else s.endCmd n c.slot (s.ending 7 20 0x0D50 0 [])
    | none => s)

/-! ### Aborts (R353, R351) -/

/-- A ring's commands aborted (R353): those not started complete at once with STATUS 6; a started one as soon as no answer is
outstanding for it. -/
def State.abortRing (s : State) (n : Nat) : State :=
  let e := s.ending 6 20 0x0D51 0 []
  let s := s.updRing n (fun r => { r with
    ready := r.ready.map (fun p => if p.code = 0 then { p with code := 0x0D51, payload := [] } else p),
    run := r.run.map (fun c => if c.ended.isSome then c
      else if hType c.header == 0x06 || !c.awaited.isEmpty then { c with aborting := true } else { c with ended := some e }) })
  State.startRefused n 64 s

/-- Commands with work on a Bench end with a status (R283, R351). -/
def State.endWork (s : State) (b status code die : Nat) : State :=
  (List.range 65).foldl (fun s n => s.updRing n (fun r => { r with run := r.run.map (fun c =>
    if c.ended.isNone && nbit c.work b then { c with ended := some (s.ending status die code 0 []) } else c) })) s

/-! ### NOP, WRITE, READ, CODE, RUN (R349) -/

/-- NOP. -/
def execNop (ring : RingId) (s : State) : Host.Outcome State Fault Refusal :=
  .next (s.startCmd ring.val 0x01 (fun s k _ _ => s.endCmd ring.val k (s.ending 0 20 0 0 [])))

/-- A move at virtual addresses on the anchor Bench's Bench Hauler, whose page must be enabled (R221, R349): a failed one ends the
command with its code, one that must wait leaves the command at the head of its ring, `old` being the state before it (R229), and `eff`
goes on from one that is done. DEDUCED: log entry 79. -/
def State.anchorMove (old s : State) (n k b : Nat) (move : State → Ans) (eff : State → List Byte → State) : State :=
  if !s.en b 0x66 then s.endCmd n k (s.ending 3 b 0x080D 0 [])
  else
    let r := move s
    if waitCode ≤ r.code then old.noteWait b r.code
    else if r.code ≠ 0 then (r.st.xltFault b 8 r.code (leNat r.data)).endCmd n k (r.st.ending 3 b r.code 0 [])
    else eff r.st r.data

/-- WRITE. DEDUCED: log entry 79. -/
def execWriteCmd (ring : RingId) (s : State) : Host.Outcome State Fault Refusal :=
  .next (s.startCmd ring.val 0x02 (fun t k h p => s.anchorMove t ring.val k (hAnchor h) (fun t => t.vwrite (hAnchor h) 6 6 (hArg h 0 8) p)
    (fun t _ => (t.bump (hAnchor h) 0x66 Off.hlrOps 1).endCmd ring.val k (t.ending 0 (hAnchor h) 0 0 []))))

/-- READ. DEDUCED: log entry 79. -/
def execReadCmd (ring : RingId) (s : State) : Host.Outcome State Fault Refusal :=
  .next (s.startCmd ring.val 0x03 (fun t k h _ => s.anchorMove t ring.val k (hAnchor h)
    (fun t => t.vread (hAnchor h) 6 6 (hArg h 0 8) (hArg h 8 4))
    (fun t data => (t.bump (hAnchor h) 0x66 Off.hlrOps 1).endCmd ring.val k (t.ending 0 (hAnchor h) 0 0 data))))

/-- CODE (R88): the payload into the bank of every named Face or Molt of every Bench. -/
def execCode (ring : RingId) (s : State) : Host.Outcome State Fault Refusal :=
  .next (s.startCmd ring.val 0x04 (fun s k h p =>
    let us := (bitList 16 (hBench h)).flatMap (fun b => (bitList 7 (hArg h 0 1)).map (fun u => (b, u)))
    let s := us.foldl (fun s x => s.writeInstr (loc 5 x.1 x.2 (hArg h 1 1 * 0x20000 + hArg h 4 4)) p) s
    s.endCmd ring.val k (s.ending 0 ((us.getLast?.map (·.1)).getD 20) 0 0 [])))

/-- Units resumed in order; the first that R93 refuses ends it. DEDUCED: log entry 80. -/
def State.resumeList (s : State) (swap : Bool) (rpc : Option Nat) : List (Nat × Nat) → Option State × State
  | [] => (some s, s)
  | (b, u) :: us =>
    match s.resumeUnit b u swap rpc with
    | some t => t.resumeList swap rpc us
    | none => (none, s)

/-- RUN: it completes when every named unit has parked (COMMAND_COMPLETE). DEDUCED: log entry 80. -/
def execRun (ring : RingId) (s : State) : Host.Outcome State Fault Refusal :=
  .next (s.startCmd ring.val 0x05 (fun s k h _ =>
    let us := (bitList 16 (hBench h)).flatMap (fun b => (bitList 7 (hArg h 0 1)).map (fun u => (b, u)))
    let mode := hArg h 1 1
    let r := s.resumeList (nbit mode 0) (if nbit mode 1 then some (hArg h 4 4) else none) us
    match r.1 with
    | some s => s.updCmd ring.val k (fun c => { c with work := hBench h })
    | none => r.2.endCmd ring.val k (r.2.ending 1 20 0x0209 0 [])))

/-! ### SIGNAL (R350) -/

/-- The TAG of a SIGNAL's packet. -/
def signalTag (n k : Nat) : Nat := 0x100 + 64 * n + k

/-- SIGNAL: the word is checked and sent; the target's answer ends the command. -/
def execSignal (ring : RingId) (s : State) : Host.Outcome State Fault Refusal :=
  let n := ring.val
  .next (s.startCmd n 0x06 (fun s k h _ =>
    let w := w32 (hArg h 0 4)
    let t := wfld w 0 5
    if rsigMalformed w then s.endCmd n k (s.ending 1 20 0x0309 0 [])
    else if s.benchCtx t ≠ n then s.endCmd n k (s.ending 3 t 0x0306 0 [])
    else if s.isRetired t || !s.uncoreOn t || s.fencedOut t then s.endCmd n k (s.ending 3 t 0x030A 0 [])
    else (s.send (s.rsigPacket 20 w (signalTag n k) true)).updCmd n k (fun c => { c with work := 2 ^ t })))

/-- The answer to a SIGNAL (R350). -/
def State.signalAnswer (s : State) (tag sts die : Nat) : State :=
  let n := (tag - 0x100) / 64
  s.endCmd n ((tag - 0x100) % 64) (if sts = 0 then s.ending 0 die 0 0 [] else s.ending 3 die 0x0307 0 [])

/-! ### TIMESNAP (R352) -/

/-- TIMESNAP: a sample request goes to every reachable die, and WBG_TIME is read. -/
def execTimesnap (ring : RingId) (s : State) : Host.Outcome State Fault Refusal :=
  let n := ring.val
  .next (s.startCmd n 0x07 (fun s k _ _ =>
    let ds := (List.range 20).filter (fun d => s.uncoreOn d && !(decide (d < 16) && s.isRetired d) && s.routed 20 d)
    let t := s.dieTime 20
    let s := s.updCmd n k (fun c => { c with asked := ds, awaited := ds, samples := [20, 21, 22].foldl (fun m d => smSet (fun _ => 0) m d t) [] })
    if ds.isEmpty then s.endCmd n k (s.ending 0 20 0 0 (List.replicate 160 0 ++ (List.replicate 3 (leBytes 8 t)).flatten)) else s))

/-- The oldest command in flight on ring 0 that satisfies `p`. -/
def State.oldestCmd (s : State) (p : Cmd → Bool) : Option Cmd := (s.ring 0).run.find? p

/-- SAMPLE_REQUEST (R352): a die takes the sample of the oldest TIMESNAP that asks for it. -/
def execSampleRequest (d : DieId) (s : State) : Host.Outcome State Fault Refusal :=
  .next (match s.oldestCmd (fun c => c.asked.contains d.val) with
    | some c => s.updCmd 0 c.slot (fun c => { c with asked := c.asked.erase d.val, samples := smSet (fun _ => 0) c.samples d.val (s.dieTime d.val) })
    | none => s)

/-- TIMESNAP_SAMPLE_RETURN (R352): the command ends when the last sample returns. -/
def execTimesnapSampleReturn (d : DieId) (s : State) : Host.Outcome State Fault Refusal :=
  .next (match s.oldestCmd (fun c => c.awaited.contains d.val && !c.asked.contains d.val) with
    | some c =>
      let s := s.updCmd 0 c.slot (fun c => { c with awaited := c.awaited.erase d.val })
      if (c.awaited.erase d.val).isEmpty then
        s.endCmd 0 c.slot (s.ending 0 20 0 0 ((List.range 23).flatMap (fun i => leBytes 8 (smGet (fun _ => 0) c.samples i))))
      else s
    | none => s)

end Sys2Proof.Machine
end

