-- ==== Sys2Proof/Machine/Carapace.lean ====
section
/-!
DEFINITION. Carapace (R360 to R389): contexts, key agreement, quotes, exports, the measurement log and the fuse mailbox. Carapace
runs one request at a time (R367): a command's whole effect is one event, and none starts while a mailbox request is pending or
running.
-/

namespace Sys2Proof.Machine

/-! ### Requests (R366, R382) -/

/-- The random generator has failed a health test (R361). DESIGN CHOICE: log entry 85. -/
def State.drbgFailed (s : State) : Bool := wbit (s.reg 21 0 Off.stat) 18

/-- A Carapace command starts if no mailbox request is before it (R367). DEDUCED: log entry 83. -/
def State.startCar (s : State) (n ty : Nat) (eff : State → Nat → List Byte → List Byte → State) : State :=
  if s.carapace.mail.isSome then s else s.startCmd n ty (fun s k h p => eff (s.bump 21 0 Off.carOps 1) k h p)

/-- A Carapace command ends with a Carapace code (R366): STATUS 1, CODE 0x0D0A, and the code in INFO and CAR_ERR.
DEDUCED: log entry 83. -/
def State.carFail (s : State) (n k code : Nat) : State :=
  ((s.recordFirst 21 0 Off.carErr code).raise 21 0 0x10000).endCmd n k (s.ending 1 20 0x0D0A code [])

/-- A Carapace command is done. -/
def State.carDone (s : State) (n k : Nat) (payload : List Byte) : State := s.endCmd n k (s.ending 0 20 0 0 payload)

/-- The nibble of a context in CAR_CSTATE set (R386): state and PLAINEXP. -/
def State.setCtx (s : State) (t st : Nat) (plain : Bool) : State :=
  s.setFld 21 0x20 (Off.carCstate + 4 * (t / 8)) (4 * (t % 8)) 4 (st + 4 * plain.toNat)

/-- PLAINEXP of a context. -/
def State.plainExp (s : State) (t : Nat) : Bool := s.rfld 21 0x20 (Off.carCstate + 4 * (t / 8)) (4 * (t % 8) + 2) 1 == 1

/-- The Benches of a context. -/
def State.benchesOf (s : State) (t : Nat) : List Nat := (List.range 16).filter (fun b => s.benchCtx b == t && !s.isRetired b)

/-- The session bit of a context in CAR_SESS (R385). -/
def State.setSession (s : State) (t : Nat) (on : Bool) : State :=
  (s.updCtx t (fun k => { k with session := on })).setFld 21 0x18 (Off.carSess0 + 4 * ((t - 1) / 32)) ((t - 1) % 32) 1 on.toNat

/-- The host nonce counter of a ring restarts (R347). -/
def State.clearNonce (s : State) (t : Nat) : State :=
  ((s.setReg 20 (ringPage t) Off.cmdNctrLo 0).setReg 20 (ringPage t) Off.cmdNctrHi 0).updCtx t (fun k => { k with panelCtr := 0 })

/-! ### Context commands (R365) -/

/-- CREATE. -/
def execCreate (ring : RingId) (s : State) : Host.Outcome State Fault Refusal :=
  let n := ring.val
  .next (s.startCar n 0x10 (fun s k h _ =>
    let t := hArg h 0 1
    let plain := hArg h 1 1 == 1
    if t = 0 || 64 < t then s.carFail n k 0x0E01
    else if s.ctxState t ≠ 0 then s.carFail n k 0x0E02
    else if plain && s.fuses.pelock then s.carFail n k 0x0E09
    else if s.drbgFailed then s.carFail n k 0x0E0A
    else
      let s := (s.newKey t).draw.updCtx t (fun x => { CtxKeys.empty with kgen := x.kgen + 1 })
      (((s.clearNonce t).setCtx t 1 plain).bump 21 0x20 Off.carCtxcmd 1).carDone n k []))

/-- ASSIGN. -/
def execAssign (ring : RingId) (s : State) : Host.Outcome State Fault Refusal :=
  let n := ring.val
  .next (s.startCar n 0x11 (fun s k h _ =>
    let t := hArg h 0 1
    let bs := bitList 16 (hArg h 2 2)
    if 64 < t then s.carFail n k 0x0E01
    else if t ≠ 0 && s.ctxState t ≠ 1 && s.ctxState t ≠ 3 then s.carFail n k 0x0E02
    else if bs.any (fun b => s.isRetired b || s.fencedOut b || !s.uncoreOn b || (s.benchCtx b ≠ 0 && s.ctxState (s.benchCtx b) = 2)) then
      s.carFail n k 0x0E03
    else
      let s := (bs.filter (fun b => s.benchCtx b ≠ t)).foldl (fun s b => s.changeContext b t) s
      (s.bump 21 0x20 Off.carCtxcmd 1).carDone n k []))

/-- START. -/
def execStart (ring : RingId) (s : State) : Host.Outcome State Fault Refusal :=
  let n := ring.val
  .next (s.startCar n 0x12 (fun s k h _ =>
    let t := hArg h 0 1
    if t = 0 || 64 < t then s.carFail n k 0x0E01
    else if s.ctxState t ≠ 1 && s.ctxState t ≠ 3 then s.carFail n k 0x0E02
    else if !(s.ctxKeys t).session then s.carFail n k 0x0E08
    else ((s.setCtx t 2 (s.plainExp t)).bump 21 0x20 Off.carCtxcmd 1).carDone n k []))

/-- A page is asked to quiesce, in the block and in the shadow. -/
def State.askQuiesce (s : State) (d p : Nat) : State :=
  let s := s.setFld d p Off.ctl 2 1 1
  { s with shadow := smSet regReset s.shadow (regKey d p Off.ctl) (wput (smGet regReset s.shadow (regKey d p Off.ctl)) 2 1 1) }

/-- The Benches of a stopped context (R365): every context-dependent page quiesced with discard, and SPC_CTL.EN cleared. -/
def State.quiesceBench (s : State) (b : Nat) : State :=
  let s := contextPages.foldl (fun s p => s.askQuiesce b p) s
  let s := (List.range 6).foldl (fun s u => s.setFld b (ctlPage u) Off.ctl 17 1 1) s
  let s := (List.range 7).foldl (fun s u => s.quiesceUnit b u true) s
  (s.stopTask b).forceOff b 0x98

/-- STOP. -/
def execStop (ring : RingId) (s : State) : Host.Outcome State Fault Refusal :=
  let n := ring.val
  .next (s.startCar n 0x13 (fun s k h _ =>
    let t := hArg h 0 1
    if t = 0 || 64 < t then s.carFail n k 0x0E01
    else if s.ctxState t ≠ 2 then s.carFail n k 0x0E02
    else
      let s := (s.benchesOf t).foldl (fun s b => s.quiesceBench b) (s.abortRing t)
      ((s.setCtx t 3 (s.plainExp t)).bump 21 0x20 Off.carCtxcmd 1).carDone n k []))

/-- DESTROY. -/
def execDestroy (ring : RingId) (s : State) : Host.Outcome State Fault Refusal :=
  let n := ring.val
  .next (s.startCar n 0x14 (fun s k h _ =>
    let t := hArg h 0 1
    if t = 0 || 64 < t then s.carFail n k 0x0E01
    else if s.ctxState t ≠ 1 && s.ctxState t ≠ 3 then s.carFail n k 0x0E02
    else
      let s := ((s.benchesOf t).foldl (fun s b => s.changeContext b 0) s).abortRing t
      let s := ((s.newKey t).setSession t false).updCtx t (fun x => { CtxKeys.empty with kgen := x.kgen })
      ((s.setCtx t 0 false).bump 21 0x20 Off.carCtxcmd 1).carDone n k []))

/-! ### Key agreement and attestation (R370, R371) -/

/-- KEYX. -/
def execKeyx (ring : RingId) (s : State) : Host.Outcome State Fault Refusal :=
  let n := ring.val
  .next (s.startCar n 0x18 (fun s k _ p =>
    let teph := p.take 64
    let texp := (p.drop 64).take 64
    if s.ctxState n = 0 then s.carFail n k 0x0E02
    else if s.ctxState n ≠ 1 || (s.ctxKeys n).session then s.carFail n k 0x0E04
    else match ecPoint teph, ecPoint texp with
    | some q, some _ =>
      if s.drbgFailed then s.carFail n k 0x0E0A
      else
        let d := scalarOf (randomBytes s.fresh 48)
        let ks := scalarOf (randomBytes (s.fresh + 1) 48)
        let ceph := ecPublic d
        let xhash := sha256 (serial ++ leBytes 1 n ++ teph ++ texp ++ (p.drop 128).take 32 ++ ceph)
        let key := hkdf (ecdh d q) xhash (ascii "EL1600 session v1") 32
        let s := (s.draw.draw).updCtx n (fun x => { x with sessKey := key, texp := texp, xhash := xhash })
        let s := ((s.setSession n true).clearNonce n).bump 21 0x18 Off.carKeyxn 1
        s.carDone n k (ceph ++ xhash ++ ecdsaSign dikScalar ks xhash)
    | _, _ => s.carFail n k 0x0E05))

/-- The quote up to its signature (R371). -/
def State.quoteBody (s : State) (n : Nat) (chal : List Byte) : List Byte :=
  let f := s.fuses
  let mcnt := s.reg 21 8 Off.carMcnt
  let keys := s.ctxKeys n
  [1] ++ leBytes 1 n ++ leBytes 1 (if n = 0 then 2 else s.ctxState n)
    ++ leBytes 1 ((s.plainExp n).toNat + 2 * f.dbgLock.toNat + 4 * f.pelock.toNat) ++ leBytes 4 f.log.length ++ serial ++ dikPublic
    ++ endorsement ++ chal ++ s.getString 21 8 Off.carMeas 32 ++ leBytes 1 (wfld mcnt 0 5 + 128 * wfld mcnt 31 1) ++ leBytes 1 f.svn
    ++ leBytes 2 s.retired ++ leBytes 2 (s.reg 21 0xE0 Off.fusOwn).toNat
    ++ leBytes 2 (maskOf (s.benchesOf n)) ++ sha256 (f.log.flatMap (fun e => leBytes 8 e.toNat))
    ++ (if n = 0 || !keys.session then List.replicate 32 0 else keys.xhash) ++ leBytes 4 keys.kgen ++ List.replicate 12 0

/-- QUOTE. -/
def execQuote (ring : RingId) (s : State) : Host.Outcome State Fault Refusal :=
  let n := ring.val
  .next (s.startCar n 0x19 (fun s k _ p =>
    let body := s.quoteBody n p
    let sig := ecdsaSign dikScalar (scalarOf (randomBytes s.fresh 48)) (sha256 body)
    (s.draw.bump 21 0x10 Off.carQuotes 1).carDone n k (body ++ sig)))

/-! ### Export (R372 to R374) -/

/-- The blob of an export: in MODE 0 sealed to TEXP. -/
def exportBlob (x : CtxKeys) (eseq fresh : Nat) (plain : Bool) (data : List Byte) : List Byte :=
  let head := fun (m : Byte) => [1, m, 0, 0] ++ leBytes 4 data.length ++ leBytes 8 eseq
  if plain then head 1 ++ List.replicate 80 0 ++ data
  else
    let d := scalarOf (randomBytes fresh 48)
    let aad := head 0 ++ ecPublic d
    let key := hkdf (match ecPoint x.texp with | some q => ecdh d q | none => []) x.xhash (ascii "EL1600 export v1") 32
    let iv := leBytes 4 3 ++ leBytes 8 eseq
    let body := gcmCrypt key iv data
    aad ++ gcmTag key iv aad body ++ body

/-- EXPORT. DEDUCED: log entries 79, 87. -/
def execExportData (ring : RingId) (s : State) : Host.Outcome State Fault Refusal :=
  let n := ring.val
  .next (s.startCar n 0x1A (fun t k h _ =>
    let old := s
    let s := t
    let b := hAnchor h
    let len := hArg h 8 4
    let plain := s.plainExp n
    if s.ctxState n ≠ 2 then s.carFail n k 0x0E02
    else if 262048 < len then s.carFail n k 0x0E07
    else if plain && s.fuses.pelock then s.carFail n k 0x0E09
    else if !plain && s.drbgFailed then s.carFail n k 0x0E0A
    else old.anchorMove s n k b (fun s => s.vread b 6 6 (hArg h 0 8) len) (fun s data =>
      let q := (s.ctxKeys n).eseq + 1
      let blob := exportBlob (s.ctxKeys n) q s.fresh plain data
      let s := (s.draw.updCtx n (fun x => { x with eseq := q })).bump 21 0x28 Off.carExpn 1
      let s := (s.bump 21 0x28 Off.carExpb (ceilDiv len 64)).bump 21 0x28 Off.carExpplain plain.toNat
      s.carDone n k blob)))

/-! ### The measurement log (R375, R402) -/

/-- An entry of the log (R375). -/
def logEntry (ty svn size : Nat) (digest : List Byte) : List Byte :=
  leBytes 4 ty ++ leBytes 4 svn ++ leBytes 4 size ++ leBytes 4 0 ++ digest ++ List.replicate 16 0

/-- An entry written: MEAS takes it in; a closed or full log takes none. -/
def State.measure (s : State) (ty svn size : Nat) (digest : List Byte) : State :=
  let m := s.reg 21 8 Off.carMcnt
  let k := wfld m 0 5
  if wbit m 31 || 16 ≤ k then s
  else
    let e := logEntry ty svn size digest
    let meas := sha256 (s.getString 21 8 Off.carMeas 32 ++ e)
    ((s.putString 21 8 (Off.carMlog + 64 * k) e).putString 21 8 Off.carMeas meas).setFld 21 8 Off.carMcnt 0 5 (k + 1)

/-- The SVN that the running bundle declares in the log: the entry of TYPE 0x02 (R379, R402). -/
def State.bundleSvn (s : State) : Nat :=
  match (List.range (wfld (s.reg 21 8 Off.carMcnt) 0 5)).find? (fun k => s.reg 21 8 (Off.carMlog + 64 * k) == 2) with
  | some k => (s.reg 21 8 (Off.carMlog + 64 * k + 4)).toNat
  | none => 0

/-! ### The fuse mailbox (R376 to R381) -/

/-- A mailbox request ends (R379, R382). -/
def State.endMail (s : State) (code : Nat) : State :=
  let m := s.reg 21 0 Off.carMbstat
  let s := { s with carapace := { s.carapace with mail := none, fusing := false } }
  let s := s.setReg 21 0 Off.carMbstat (w32 (code + 2 ^ 16 * ((wfld m 16 8 + 1) % 256) + 2 ^ 30 * wfld m 30 1))
  (s.raise 21 0 0x20000).bump 21 0 Off.carOps 1

/-- A write of WBG_CMB_GO (R379): taken unless a request is pending or running; a reserved OP ends at once with 0x0E20. -/
def State.cmbGo (s : State) (a : Agent) : State :=
  if s.carapace.mail.isSome then s.setFld 21 0 Off.carMbstat 30 1 1
  else
    let r := fun o => (s.reg 20 0x71 o).toNat
    let m : Mailbox := ⟨a, r Off.wbgCmbOp % 256, r Off.wbgCmbOp / 256 % 8, r Off.wbgCmbArg0, r Off.wbgCmbArg1,
      s.getString 20 0x71 Off.wbgCmbNkey 64, s.getString 20 0x71 Off.wbgCmbSkey 64, s.getString 20 0x71 Off.wbgCmbSig 64⟩
    let s := { s with carapace := { s.carapace with mail := some m } }
    let s := (s.setFld 21 0 Off.carMbstat 30 2 2).setFld 21 0 Off.irqStat 17 1 0
    if m.op = 0 || 7 < m.op then s.endMail 0x0E20 else s

/-- The state of an owner slot. -/
def Fuses.slot (f : Fuses) (i : Nat) : Nat × List Byte := smGet (fun _ => (0, [])) f.owners i

/-- No owner slot has ever been programmed (R379, R399). -/
def Fuses.virgin (f : Fuses) : Bool := (List.range 8).all (fun i => (f.slot i).1 == 0)

/-- The signature of a request (R380). -/
def State.mailSigned (s : State) (m : Mailbox) : Bool :=
  let o := s.fuses.slot m.slot
  let blk := leBytes 1 m.op ++ leBytes 1 m.slot ++ [0, 0] ++ leBytes 4 m.arg0 ++ leBytes 4 0 ++ leBytes 4 s.fuses.log.length ++ serial
    ++ (if m.op = 2 then sha256 m.nkey else List.replicate 32 0)
  o.1 == 1 && sha256 m.skey == o.2 && ecdsaVerify m.skey (sha256 blk) m.sig

/-- Every pair of the dies that are left when Benches `ret` are retired is reachable with all links usable (R276, R379). -/
def State.reachableWithout (s : State) (ret : Nat) : Bool :=
  let up := allPorts.foldl (fun s x => if (partner x.1 x.2).isSome then s.setLstate x.1 x.2 2 else s) { s with retired := ret }
  let on := (List.range 21).foldl (fun s d => s.setFld d 0xF0 Off.cpvDom 1 1 1) up
  !((on.setReg 20 0x80 Off.lnkFstat 0).setReg 20 8 Off.wbgAbsent 0).unreachable none

/-- Target of a request out of range or with a reserved bit set (R379). -/
def mailRange (op a : Nat) : Bool :=
  match op with
  | 1 => decide (1 ≤ a) && decide (a ≤ 128)
  | 2 | 3 => decide (a < 8)
  | 4 => decide (a < 16)
  | 5 => a &&& 0x3F1F1F == a && decide (fld a 0 5 < 16) && decide (fld a 8 5 < 24)
  | 6 => a &&& 0x1FFF11F == a && decide (fld a 0 5 < 16)
  | _ => a == 0

/-- The code with which a request is refused, in the order of R379, or 0. -/
def State.mailCode (s : State) (m : Mailbox) : Nat :=
  let f := s.fuses
  let a := m.arg0
  let signed := m.op = 3 || m.op = 4 || (m.op = 2 && !f.virgin)
  if m.arg1 ≠ 0 || !mailRange m.op a then 0x0E20
  else if 256 ≤ f.log.length then 0x0E23
  else if signed && !s.mailSigned m then 0x0E21
  else match m.op with
    | 1 => if a ≤ f.svn || s.bundleSvn < a then 0x0E24 else 0
    | 2 => if (f.slot a).1 ≠ 0 then 0x0E22 else 0
    | 3 => if (f.slot a).1 ≠ 1 then 0x0E22 else if (List.range 8).countP (fun i => (f.slot i).1 == 1) ≤ 1 then 0x0E26 else 0
    | 4 => if nbit f.retire a || s.isRetired a then 0x0E22
        else if s.benchCtx a ≠ 0 || !s.reachableWithout (f.retire ||| s.retired ||| 2 ^ a) then 0x0E25 else 0
    | 5 => if 4 ≤ (smGet (fun _ => []) f.colByp (fld a 0 5 * 32 + fld a 8 5)).length then 0x0E22 else 0
    | 6 =>
      let l := smGet (fun _ => []) f.hbmRep (fld a 0 5 * 2 + fld a 8 1)
      if 16 ≤ l.length || l.any (fun x => x.1 == fld a 12 4 && x.2.2.1 == fld a 24 1) then 0x0E22 else 0
    | _ => if f.pelock then 0x0E22 else 0

/-- Carapace takes the pending request of an operation (R367, R377 to R379): it is refused, or its log entry is written with
DONE = 0 and the programming begins. DEDUCED: log entry 83. -/
def State.takeMail (s : State) (op : Nat) : State :=
  match s.carapace.mail with
  | some m =>
    if m.op ≠ op || s.carapace.fusing then s
    else
      let code := s.mailCode m
      if code ≠ 0 then s.endMail code
      else
        let src := if m.agent = .host then 1 else 2
        let e := op + 16 * src + 256 * (m.arg0 % 2 ^ 25) + 2 ^ 33 * s.fuses.svn
        { s with fuses := { s.fuses with log := s.fuses.log ++ [BitVec.ofNat 64 e] }, carapace := { s.carapace with fusing := true } }.showFuses
  | none => s

/-- RATCHET (R379). -/
def execRatchet (s : State) : Host.Outcome State Fault Refusal := .next (s.takeMail 1)
/-- OWNPROG (R379). -/
def execOwnprog (s : State) : Host.Outcome State Fault Refusal := .next (s.takeMail 2)
/-- OWNREV (R379). -/
def execOwnrev (s : State) : Host.Outcome State Fault Refusal := .next (s.takeMail 3)
/-- RETIRE (R379). -/
def execRetire (s : State) : Host.Outcome State Fault Refusal := .next (s.takeMail 4)
/-- COLBYP (R379). -/
def execColbyp (s : State) : Host.Outcome State Fault Refusal := .next (s.takeMail 5)
/-- HBMREP (R379). -/
def execHbmrep (s : State) : Host.Outcome State Fault Refusal := .next (s.takeMail 6)
/-- PELOCK (R379). -/
def execPelock (s : State) : Host.Outcome State Fault Refusal := .next (s.takeMail 7)

/-- The setting of a request programmed with its valid bit (R376, R378). -/
def Fuses.program (f : Fuses) (m : Mailbox) : Fuses :=
  let a := m.arg0
  match m.op with
  | 1 => { f with svn := a }
  | 2 => { f with owners := smSet (fun _ => (0, [])) f.owners a (1, sha256 m.nkey) }
  | 3 => { f with owners := smSet (fun _ => (0, [])) f.owners a (2, (f.slot a).2) }
  | 4 => { f with retire := f.retire ||| 2 ^ a }
  | 5 => f.addBypass a true
  | 6 => f.addRepair a true
  | _ => { f with pelock := true }

/-- FUSE_PROGRAM_DONE (R378, R379): the setting, then DONE; a change that fails its verification ends with 0x0E27, its entry
keeps DONE = 0, and what it left is what R378 makes of a change cut short. -/
def execFuseProgramDone (verified : Bool) (s : State) : Host.Outcome State Fault Refusal :=
  .next (match s.carapace.mail with
    | some m =>
      if !s.carapace.fusing then s
      else if verified then
        let f := s.fuses.program m
        let l := f.log.dropLast ++ (f.log.getLast?.map (fun e => e ||| 0x40)).toList
        ({ s with fuses := { f with log := l } }.showFuses).endMail 0
      else (s.abandonFuses.showFuses).endMail 0x0E27
    | none => s)

end Sys2Proof.Machine
end

