-- ==== Sys2Proof/Machine/Fabric.lean ====
section
/-!
DEFINITION. The Rhocha fabric at work: link training, lane swaps and frames (R260 to R264), requests at their target and answers at
their requester (R265, R266), discovery (R272, R273), and fence and readmission (R280 to R286).
-/

namespace Sys2Proof.Machine

/-! ### Links (R260 to R264, R288) -/

/-- A write of LNK_TRAIN.GO (R288). -/
def State.trainLink (s : State) (d p : Nat) : State :=
  let port := p - 0x80
  if s.en d p then s.refuse d p 6 0xFFF 0x0A04
  else
    let l := s.lstate d port
    if l = 0 || l = 4 then s.startTraining d port
    else if l = 2 || l = 3 then (s.linkDown d port).startTraining d port
    else s

/-- A lane fails in service (R261): a spare takes its place while its direction sends nothing, or the lane stays and NOSPARE is set.
DEDUCED: log entry 63. -/
def execLaneSwap (p : PortId) (lane : Fin 18) (s : State) : Host.Outcome State Fault Refusal :=
  let d := p.die.val
  let q := p.port.val
  let r := s.port d q
  .next (if s.lstate d q ≠ 2 || smGet (fun _ => 0) r.laneErr lane.val ≤ s.rfld d (lnkPage q) Off.lnkCfg 8 8
      || !nbit (lanesInUse r.good).1 lane.val then s
    else if (lanesInUse r.good).2 = 0 then s.setFld d (lnkPage q) Off.stat 20 1 1
    else
      let good := r.good - 2 ^ lane.val
      let s := s.updPort d q (fun r => { r with good := good, laneErr := smSet (fun _ => 0) r.laneErr lane.val 0, swapping := true })
      (s.showLanes d q (lanesInUse good).1 (lanesInUse good).2).setLink d q 3)

/-- A lane swap of the direction that a port receives ends: the frames not acknowledged are replayed (R261).
DEDUCED: log entry 63. -/
def State.endSwap (s : State) (d port : Nat) : State :=
  match partner d port with
  | some (e, q) =>
    if (s.port d port).swapping then
      (s.updPort d port (fun r => { r with swapping := false })).updPort e q (fun r => { r with resend := r.replay.head?.map (·.seq) })
    else s
  | none => s

/-- LANE_SWAP_DONE (R261): both ends go on sending, and IRQ_STAT.BLK.SWAP rises at both. -/
def execLaneSwapDone (p : PortId) (s : State) : Host.Outcome State Fault Refusal :=
  let d := p.die.val
  let q := p.port.val
  .next (if s.lstate d q ≠ 3 then s
    else
      let s := ((s.endSwap d q).setLink d q 2).raise d (lnkPage q) 0x20000
      match partner d q with
      | some (e, r) => (s.endSwap e r).raise e (lnkPage r) 0x20000
      | none => s)

/-- Corrected symbols of each lane added to the counts of the window (R261). -/
def addCorrected (m : SMap Nat) : Nat → List Nat → SMap Nat
  | _, [] => m
  | i, n :: ns => addCorrected (smSet (fun _ => 0) m i (smGet (fun _ => 0) m i + n)) (i + 1) ns

/-- Errors put into the bytes of a frame. -/
def withErrors (flits : List (List Byte)) (es : List (Nat × Byte)) : List (List Byte) :=
  es.foldl (fun l e => l.modify (e.1 / 64) (fun f => f.modify (e.1 % 64) (fun x => x ^^^ e.2))) flits

/-- The CRC of a frame as it arrives holds (R264). -/
def crcHolds (flits : List (List Byte)) : Bool :=
  let check := flits.getD 39 []
  crc64 ((flits.take 39).flatten ++ check.take 16) == leNat ((check.drop 16).take 8)

/-- The cells that a check flit returns, refilled by the sender of the other direction (R269). -/
def Port.takeCred (p : Port) (check : List Byte) : Port :=
  (List.range 6).foldl (fun p v => p.refill v (check.getD (9 + v) 0).toNat) p

/-- A frame whose CRC fails is discarded (R264): the one that is due is asked for again, and its sixteenth failure in succession takes
the link DOWN. -/
def State.badFrame (s : State) (d port seq : Nat) : State :=
  let r := s.port d port
  let s := s.bump d (lnkPage port) Off.lnkCrcerr 1
  if seq ≠ r.expect then s
  else if 16 ≤ r.fails + 1 then s.linkDown d port
  else s.updPort d port (fun r => { r with naking := true, nakDue := true, fails := r.fails + 1 })

/-- A frame whose CRC holds (R264, R267): it acknowledges, and, if it is the one that is due, its credits, headers and data are
taken. DEDUCED: log entry 62. -/
def State.goodFrame (s : State) (d port : Nat) (flits : List (List Byte)) : State :=
  let check := flits.getD 39 []
  let map := leNat ((check.drop 4).take 5)
  let s := s.updPort d port (fun p => p.heed (leNat ((check.drop 2).take 2)) (nbit map 39))
  if leNat (check.take 2) ≠ (s.port d port).expect then s
  else
    let s := s.updPort d port (fun p =>
      takeFlits map 0 (flits.take 39) ({ p with expect := (p.expect + 1) % 65536, naking := false, nakDue := false, fails := 0 }.takeCred check))
    (s.bump d (lnkPage port) Off.lnkRxdata (frameData flits)).acceptWhole d port (s.port d port).parts

/-- FRAME_RECEIVE (R261, R264, R267): the far end's next frame arrives whole, is corrected with FEC, and is taken or discarded. A
direction that a lane swap holds sends none. DEDUCED: log entries 6, 62. -/
def execFrameReceive (p : PortId) (n : LinkNoise) (s : State) : Host.Outcome State Fault Refusal :=
  let d := p.die.val
  let q := p.port.val
  let r := s.port d q
  .next (match partner d q with
    | none => s
    | some (e, t) =>
      if (s.lstate d q ≠ 2 && s.lstate d q ≠ 3) || r.swapping then s
      else match s.nextFrame e t (s.rfld d (lnkPage q) Off.lnkCfg 0 6) with
        | none => s
        | some (fr, s) =>
          let flits := withErrors fr.flits n.errors
          let corr := n.corrected.take 18
          let errs := addCorrected (if r.frames % 2 ^ 20 = 0 then [] else r.laneErr) 0 corr
          let s := (s.bump e (lnkPage t) Off.lnkTxdata (frameData fr.flits)).bump d (lnkPage q) Off.lnkFeccor corr.sum
          let s := s.updPort d q (fun r => { r with laneErr := errs, frames := (r.frames + 1) % 2 ^ 20 })
          if crcHolds flits then s.goodFrame d q flits else s.badFrame d q fr.seq)

/-! ### Requests at their target (R265, R266, R280) -/

/-- A packet of one type that is on its way, taken off the fabric. DEDUCED: log entry 9. -/
def State.arrive (s : State) (p : Packet) (ty : Nat) : Option State := if p.ptype.toNat = ty then s.takePacket p else none

/-- A place at whose die nothing serves a request: the die unpowered, or the page of the memory disabled.
DEDUCED: log entry 60. -/
def State.unserved (s : State) (l : Nat) : Bool :=
  let d := locDie l
  !s.uncoreOn d || match locRegion l with
    | 1 => !s.en d (0x74 + locUnit l)
    | 2 => !s.en d 0x00 || !s.en d (0x10 + locUnit l)
    | 3 => !s.en d 0x70
    | _ => decide (16 ≤ d)

/-- The place of a request lies in its memory: an address of 48 bits may name none (R265). DEDUCED: log entry 106. -/
def placeExists (l : Nat) (p : Packet) : Bool :=
  let a := fld p.word1.toNat 0 48
  match locRegion l with
  | 1 | 2 => decide (a < 2 ^ 36)
  | 3 => decide (a < 2 ^ 27)
  | _ => decide (a < 0x800000)

/-- A request of the same requester to the same line came before (R229). DEDUCED: log entry 59. -/
def State.overtakes (s : State) (p : Packet) : Bool :=
  (s.fabric.takeWhile (· != p)).any (fun q => isRequest q && q.sdie == p.sdie && q.ddie == p.ddie
    && lineStart (packetPlace q) == lineStart (packetPlace p))

/-- The spur port of a Stockpile over which a request came: that of its attach Bench (R274). -/
def requestPort (p : Packet) : Nat := spurPort p.tgt.toNat

/-- STK_ARB.WGT of a spur port (R255). -/
def State.weight (s : State) (d port : Nat) : Nat := s.rfld d 0x00 Off.stkArb (4 * port) 4

/-- The requests that a spur port has been served in the round (R252). -/
def State.servedIn (s : State) (d port : Nat) : Nat := smGet (fun _ => 0) s.arb (4 * d + port)

/-- Requests wait at a spur port of a Stockpile. -/
def State.portWaits (s : State) (d port : Nat) : Bool := s.fabric.any (fun q => isRequest q && q.ddie.toNat == d && requestPort q == port)

/-- The turn of a spur port in the weighted round robin (R252): a port of weight 0 has it while no other port waits, and another while
its weight is not used up, or no other port that waits has any left. DESIGN CHOICE: log entry 57. -/
def State.portTurn (s : State) (d port : Nat) : Bool :=
  let others := ((List.range 4).filter (fun k => k != port && s.portWaits d k))
  if s.weight d port = 0 then others.isEmpty
  else decide (s.servedIn d port < s.weight d port) || others.all (fun k => decide (s.weight d k ≤ s.servedIn d k))

/-- A spur port served once more; where its weight was used up, a new round begins. DESIGN CHOICE: log entry 57. -/
def State.servePort (s : State) (d port : Nat) : State :=
  if s.weight d port = 0 then s
  else
    let m := if s.servedIn d port < s.weight d port then s.arb else (List.range 4).foldl (fun m k => smSet (fun _ => 0) m (4 * d + k) 0) s.arb
    { s with arb := smSet (fun _ => 0) m (4 * d + port) (smGet (fun _ => 0) m (4 * d + port) + 1) }

/-- The target takes a request now: none of its requester to the same line waits before it, no ways are being cleared, and at a
Stockpile it is its port's first and its port has the turn (R229, R236, R252). -/
def State.takesRequest (s : State) (p : Packet) : Bool :=
  let d := p.ddie.toNat
  !s.overtakes p && !(s.galleryWaits (packetPlace p))
    && (d < 16 || (s.portTurn d (requestPort p)
      && !(s.fabric.takeWhile (· != p)).any (fun q => isRequest q && q.ddie == p.ddie && requestPort q == requestPort p)))

/-- A request that is answered with STS 3 (R266, R280): its memory is not served or has no such address, or its Bench is fenced and it
is not the Bench's own. DEDUCED: log entry 60. -/
def State.refuses (s : State) (p : Packet) (l : Nat) : Bool :=
  s.unserved l || !placeExists l p || (s.deaf p.ddie.toNat && p.sdie != p.ddie)

/-- An answer on its way back to the requester, message class 1 (R266, R268). -/
def State.reply (s : State) (p : Packet) (ty sts : Nat) (data : List Byte) : State :=
  s.send (s.packet p.ddie.toNat p.sdie.toNat ty 1 p.tag.toNat sts 0 0 (flits data))

/-- A request reaches its target; `serve` carries it out at the place that it names. -/
def State.request (s : State) (p : Packet) (ty rsp : Nat) (serve : State → Nat → State) : State :=
  let l := packetPlace p
  match s.arrive p ty with
  | none => s
  | some t =>
    if !s.takesRequest p then s
    else
      let t := if p.ddie.toNat < 16 then t else t.servePort p.ddie.toNat (requestPort p)
      if t.refuses p l then t.reply p rsp 3 [] else serve t l

/-- The KCTX of a request (R265). -/
def packetKctx (p : Packet) : Nat := fld p.word1.toNat 50 7

/-- The bytes that a WRREQ writes: LASTB of its last flit count (R265). -/
def packetBytes (p : Packet) : List Byte :=
  let n := fld p.word1.toNat 57 6
  p.data.take (if n = 0 then p.data.length else p.data.length - 64 + n)

/-- RDREQ: 64 or 128 bytes from the 64-byte boundary at or below the address. -/
def execRdreq (p : Packet) (s : State) : Host.Outcome State Fault Refusal :=
  .next (s.request p 0x01 0x02 (fun s l =>
    let a := l - l % 64
    let r := s.targetRead a (if p.aux.getLsbD 0 then 128 else 64) (packetKctx p)
    r.st.reply p 0x02 (codeSts r.code) (if r.code = 0 then r.data else [])))

/-- WRREQ: written at its home. -/
def execWrreq (p : Packet) (s : State) : Host.Outcome State Fault Refusal :=
  .next (s.request p 0x03 0x04 (fun s l =>
    let r := s.targetWrite l (packetKctx p) (packetBytes p)
    r.st.reply p 0x04 (codeSts r.code) []))

/-- ATOMREQ: applied at the scratch of the target's Gallery (R243, R244). -/
def execAtomreq (p : Packet) (s : State) : Host.Outcome State Fault Refusal :=
  .next (s.request p 0x05 0x06 (fun s l =>
    if locRegion l ≠ 3 then s.reply p 0x06 3 []
    else
      let byte := fun i => (p.data.getD i 0).toNat
      let r := s.atomApply l (byte 0) (byte 1) (leNat ((p.data.drop 8).take (atomSize (byte 1)))) (leNat ((p.data.drop 16).take (atomSize (byte 1))))
      r.2.reply p 0x06 0 (if byte 2 = 0 then [] else leBytes (atomSize (byte 1)) r.1)))

/-- A response at a Bench: the request's slot ends with its status or its data. DEDUCED: log entry 60. -/
def State.respond (s : State) (p : Packet) : State :=
  s.answer p.ddie.toNat p.tag.toNat (if p.sts = 0 then 0 else stsCode p.sts.toNat) p.data

/-- RDRSP. -/
def execRdrsp (p : Packet) (s : State) : Host.Outcome State Fault Refusal :=
  .next (match s.arrive p 0x02 with | some t => t.respond p | none => s)

/-- ATOMRSP. -/
def execAtomrsp (p : Packet) (s : State) : Host.Outcome State Fault Refusal :=
  .next (match s.arrive p 0x06 with | some t => t.respond p | none => s)

/-! ### The fabric manager (R281 to R286) -/

/-- LNK_FSTAT of die 20. -/
def State.fstat (s : State) (lo len : Nat) : Nat := s.rfld 20 0x80 Off.lnkFstat lo len

/-- A field of LNK_FSTAT set. -/
def State.setFstat (s : State) (lo len v : Nat) : State := s.setFld 20 0x80 Off.lnkFstat lo len v

/-- A fence or readmission operation has ended: STATE, and FDONE. -/
def State.fenceEnds (s : State) (state : Nat) : State := (s.setFstat 0 3 state).raise 20 0x80 0x80000

/-- The tags of the control packets: a route load, ENTER, MODE, LEAVE. -/
abbrev tagLoad : Nat := 1
/-- Tag of ENTER. -/
abbrev tagEnter : Nat := 2
/-- Tag of MODE. -/
abbrev tagMode : Nat := 3
/-- Tag of LEAVE. -/
abbrev tagLeave : Nat := 4

/-- An FCTL packet to a Bench (R285). -/
def State.sendFctl (s : State) (b op mode tag : Nat) : State := s.send (s.packet 20 b 0x23 0 tag 0 0 (op + 4 * mode + 8 * b) [])

/-- A route load has ended on every die: RLOAD, and the step that follows it (R282, R284, R288). -/
def State.loadsEnded (s : State) : State :=
  let s := s.raise 20 0x80 0x100000
  let b := s.fstat 3 5
  if s.fm.after = 1 then ({ s with fm := ⟨[], 0⟩ }).sendFctl b 0 (s.fstat 8 1) tagEnter
  else if s.fm.after = 2 then s.sendFctl b 2 0 tagLeave
  else s

/-- A WRACK at the Weighbridge. -/
def State.managerAck (s : State) (die tag sts : Nat) : State :=
  if 0x100 ≤ tag then s.signalAnswer tag sts die
  else if tag = tagLoad then
    let s' := { s with fm := { s.fm with loads := s.fm.loads.filter (· != die) } }
    if s.fm.loads ≠ [] && s'.fm.loads = [] then s'.loadsEnded else s'
  else if tag = tagEnter && sts = 0 then
    if s.fstat 0 3 = 1 && s.fstat 3 5 = die then ((s.setFstat (16 + die) 1 1).setFstat 9 1 0).fenceEnds 2 else s
  else if tag = tagLeave && sts = 0 then
    if s.fstat 0 3 = 3 && s.fstat 3 5 = die then (({ s.setFstat (16 + die) 1 0 with fm := ⟨s.fm.loads, 0⟩ }).fenceEnds 0).askShadows die
    else s
  else s

/-- WRACK (R266, R285, R350): a requester's slot ends, or at the Weighbridge a step of the fabric manager or a SIGNAL.
DEDUCED: log entry 60. -/
def execWrack (p : Packet) (s : State) : Host.Outcome State Fault Refusal :=
  .next (match s.arrive p 0x04 with
    | none => s
    | some t => if p.ddie = 20 then t.managerAck p.sdie.toNat p.tag.toNat p.sts.toNat else t.respond p)

/-! ### DISC, RTLOAD (R273, R289) -/

/-- The type of a die: 1 Bench, 2 Stockpile, 3 Weighbridge. -/
def dieType (d : Nat) : Nat := if d < 16 then 1 else if d < 20 then 2 else 3

/-- DISC: the first gives the die its number, and every one is answered with the die's type and the number it has taken. -/
def execDisc (p : Packet) (s : State) : Host.Outcome State Fault Refusal :=
  let d := p.ddie.toNat
  .next (if d < 20 && !s.uncoreOn d then s
    else match s.arrive p 0x20 with
    | none => s
    | some t =>
      let old := smGet (fun _ => 0) t.dieNum d
      let n := if old = 0 then fld p.word1.toNat 0 5 + 1 else old
      let t := { t with dieNum := smSet (fun _ => 0) t.dieNum d n }
      t.send (t.packet d p.sdie.toNat 0x21 1 p.tag.toNat 0 0 (n - 1 + 32 * dieType d) []))

/-- A readmission that fails (R284): the code is recorded, and the Bench stays fenced. DEDUCED: log entry 66. -/
def State.readmitFails (s : State) (b code : Nat) : State := (s.fabricLog b code).fenceEnds 2

/-- DISCRSP at the Weighbridge: a number or type that disagrees is recorded and takes the die out; a readmitted Bench that agrees is
routed to again. -/
def execDiscrsp (p : Packet) (s : State) : Host.Outcome State Fault Refusal :=
  let d := p.sdie.toNat
  .next (match s.arrive p 0x21 with
    | none => s
    | some t =>
      let mine := t.fstat 0 3 == 3 && t.fstat 3 5 == d
      let code := if fld p.word1.toNat 0 5 ≠ d then 0x0A11 else if fld p.word1.toNat 5 2 ≠ dieType d then 0x0A12 else 0
      if code ≠ 0 then
        let t := t.portsDown d
        if mine then t.readmitFails d code else t.fabricLog d code
      else if mine then ({ t with fm := { t.fm with after := 2 } }).loadRoutes 2 [] else t)

/-- RTLOAD: the die changes its table in one link cycle and answers. -/
def execRtload (p : Packet) (s : State) : Host.Outcome State Fault Refusal :=
  let d := p.ddie.toNat
  .next (if d < 20 && !s.uncoreOn d then s
    else match s.arrive p 0x22 with
    | none => s
    | some t => let t := t.takeTable d (flitTable p.data); t.send (t.wrackTo p 0))

/-! ### FCTL at the Bench (R283, R285) -/

/-- The port by which a packet reaches the Bench it names: the last hop of its route. DEDUCED: log entry 64. -/
def State.arrivalPort (s : State) (p : Packet) : Nat :=
  let src := p.sdie.toNat
  let r := s.route src p.ddie.toNat
  let start := if src < 16 then src else ((partner src (wfld r 15 3)).map (·.1)).getD p.tgt.toNat
  match (routePath start p.wp0.toNat p.wp1.toNat p.tgt.toNat).reverse.dropWhile (· == p.ddie.toNat) with
  | a :: _ => portTo p.ddie.toNat a
  | [] => if src = 20 then portS else if 16 ≤ src then portSpur else portN

/-- A packet discarded and counted (R285). DEDUCED: log entry 64. -/
def State.badPacket (s : State) (p : Packet) : State := s.bump p.ddie.toNat (lnkPage (s.arrivalPort p)) Off.lnkBadpkt 1

/-- The Bench's work has ended: every unit parked, its queues, transfers, collectives and its task closed.
DEDUCED: log entry 65. -/
def State.benchQuiet (s : State) (b : Nat) : Bool :=
  let x := s.bench b
  (List.range 7).all (fun u => (s.face b u).parked && (s.face b u).queuesEmpty && s.unitsIdle b u) && (s.job b 6).isNone
    && x.haulQ.isEmpty && x.kicks.isEmpty && x.cru.act.isEmpty && x.task.isNone

/-- A drain quiesces each Face, and the Molt, once its queued forms have completed and no task is open for it (R283).
DEDUCED: log entry 65. -/
def State.drainFaces (s : State) (b : Nat) : State :=
  (List.range 7).foldl (fun s u =>
    let tasked := match (s.bench b).task with | some t => t.owner == u || nbit t.agents u | none => false
    if !(s.face b u).parked && (s.face b u).queuesEmpty && s.unitsIdle b u && !tasked then s.quiesceUnit b u false else s) s

/-- The fence's next steps at the Bench (R282, R283, R285): in a drain the Faces whose work has ended are quiesced; once all work has
ended, the dirty home lines are written back and ENTER is answered. DEDUCED: log entry 65. -/
def State.fenceStep (s : State) (b : Nat) : State :=
  match (s.bench b).fencing with
  | none => s
  | some (tag, disc) =>
    let s := if disc then s else s.drainFaces b
    if !s.benchQuiet b then s
    else
      let s := (s.writeBackAll b).updBench b (fun x => { x with fencing := none })
      s.send (s.packet b 20 0x04 1 tag 0 0 0 [])

/-- Every Bench's fence goes on if it can. DEDUCED: log entry 65. -/
def State.fenceSteps (s : State) : State := (List.range 16).foldl (fun s b => s.fenceStep b) s

/-- The running long forms of a unit stop with 0x0A24 (R283). DEDUCED: log entries 65, 104. -/
def State.stopUnit (s : State) (b u : Nat) : State :=
  let f := s.face b u
  let ops := (f.loads ++ f.streams ++ f.drain.toList ++ f.chute ++ f.weevil.toList).filter (fun op => !op.ended && !op.failed)
  let s := ops.foldl (fun s op => s.imprecise b u op.entry 0x0A24 0) s
  s.updFace b u (fun f => { f with loads := [], streams := [], drain := none, chute := [], weevil := none, loadTrack := [],
                                   tileQ := [], popped := 0, sieveD := none, taskEnded := none })

/-- The Bench stops its work at once, as a fence in discard mode asks (R283). DEDUCED: log entry 65. -/
def State.discardWork (s : State) (b : Nat) : State :=
  let s := (List.range 7).foldl (fun s u => (s.quiesceUnit b u true).stopUnit b u) s
  let s := jobOrder.foldl (fun s k => match s.job b k with
    | some j => s.failJob b k j 0x0A24 0 0
    | none => s) s
  let s := ((s.updBench b (fun x => { x with haulQ := [], kicks := [] })).stopColls b 0x0A24 (fun _ => true)).updBench b
    (fun x => { x with cru := ⟨[], []⟩ })
  ((s.stopTask b).dropTask b).endWork b 5 0x0A24 b

/-- The collectives of the other Benches that name the Bench stop (R283). -/
def State.stopNaming (s : State) (b : Nat) : State :=
  ((List.range 16).filter (· != b)).foldl (fun s d => s.stopColls d 0x0A23 (fun c => nbit c.memb b)) s

/-- An FCTL that its Bench acts on: from die 20, naming the Bench, with no reserved bit set. -/
def fctlGood (p : Packet) (op : Nat) : Bool :=
  let w := p.word1.toNat
  p.sdie == 20 && decide (p.ddie.toNat < 16) && fld w 3 5 == p.ddie.toNat && decide (w < 256) && fld w 0 2 == op && (op != 1 || nbit w 2)

/-- An FCTL packet with an OP reaches its Bench. One that the Bench does not act on is discarded and counted. -/
def State.fctl (s : State) (p : Packet) (op : Nat) (eff : State → State) : State :=
  let w := fld p.word1.toNat 0 2
  let b := p.ddie.toNat
  if (w ≠ op && !(op = 0 && w = 3)) || (decide (b < 20) && !s.uncoreOn b) then s
  else match s.arrive p 0x23 with
    | none => s
    | some t => if fctlGood p op then eff t else t.badPacket p

/-- FCTL_ENTER: the fence is in force from now on. DEDUCED: log entry 64. -/
def execFctlEnter (p : Packet) (s : State) : Host.Outcome State Fault Refusal :=
  let b := p.ddie.toNat
  .next (s.fctl p 0 (fun s =>
    if (s.bench b).fenced then s.send (s.wrackTo p 3)
    else
      let disc := nbit p.word1.toNat 2
      let s := (s.updBench b (fun x => { x with fenced := true, fencing := some (p.tag.toNat, disc) })).stopNaming b
      (if disc then s.discardWork b else s).fenceStep b))

/-- FCTL_MODE: the quiesce goes on in discard mode. -/
def execFctlMode (p : Packet) (s : State) : Host.Outcome State Fault Refusal :=
  let b := p.ddie.toNat
  .next (s.fctl p 1 (fun s =>
    let s := match (s.bench b).fencing with
      | some (tag, false) => ((s.updBench b (fun x => { x with fencing := some (tag, true) })).discardWork b).fenceStep b
      | _ => s
    s.send (s.wrackTo p 0)))

/-- FCTL_LEAVE: the Bench accepts every packet type again. -/
def execFctlLeave (p : Packet) (s : State) : Host.Outcome State Fault Refusal :=
  let b := p.ddie.toNat
  .next (s.fctl p 2 (fun s =>
    if !(s.bench b).fenced then s.send (s.wrackTo p 3)
    else let s := s.updBench b (fun x => { x with fenced := false }); s.send (s.wrackTo p 0)))

/-! ### LNK_FENCE (R281, R282, R284) -/

/-- A request of the fabric manager refused (R281, R291). -/
def State.refuseFence (s : State) (b code : Nat) : State := (s.refuse 20 0x80 (if code = 0x0A20 then 5 else 6) 0xFFF code).fabricLog b code

/-- The fence of a Bench would leave some pair of the other dies without a route (R276, R281). -/
def State.fenceCuts (s : State) (b : Nat) : Bool := ((s.setFstat 0 3 1).setFstat 3 5 b).unreachable (some b)

/-- A write of LNK_FENCE (R281). -/
def State.fenceRequest (s : State) (data : Word) : State :=
  let b := wfld data 0 5
  let mode := wfld data 8 1
  let re := wbit data 9
  let st := s.fstat 0 3
  let fenced := nbit (s.fstat 16 16) b
  if !wbit data 31 then s
  else if !re && mode = 1 && st = 1 && s.fstat 3 5 = b && s.fstat 8 1 = 0 then
    let s := s.setFstat 8 1 1
    if s.fm.after = 1 then s else s.sendFctl b 1 1 tagMode
  else if st = 1 || st = 3 then s.refuseFence b 0x0A32
  else if 16 ≤ b || s.isRetired b || fenced != re then s.refuseFence b 0x0A21
  else if re then
    let s := (((s.setFstat 0 3 3).setFstat 3 5 b).setFstat 8 1 mode).setFstat 9 1 0
    let s := (s.portsDown b).resetBench b
    (allPorts.filter (fun x => x.1 == b)).foldl (fun s x => if s.lstate b x.2 = 0 then s.startTraining b x.2 else s) s
  else if s.fenceCuts b then s.refuseFence b 0x0A20
  else
    let s := (((s.setFstat 0 3 1).setFstat 3 5 b).setFstat 8 1 mode).setFstat 9 1 0
    let s := s.loadRoutes 1 [b]
    if s.fm.loads = [] then s.loadsEnded else s

/-- The readmission goes on once every link of the Bench has been trained (R284). DEDUCED: log entry 66. -/
def State.readmitStep (s : State) : State :=
  let b := s.fstat 3 5
  let ls := (allPorts.filter (fun x => x.1 == b)).map (fun x => s.lstate b x.2)
  if s.fstat 0 3 ≠ 3 || ls.contains 1 then s
  else if ls.contains 4 || !ls.contains 2 then s.readmitFails b 0x0A22
  else s.send (s.packet 20 b 0x20 0 0 0 0 (b + 32 * dieType b) [])

/-- LINK_TRAINING_DONE (R260): the link goes UP or FAILED at both ends. DEDUCED: log entry 6. -/
def execLinkTrainingDone (p : PortId) (tx rx : BitVec 18) (s : State) : Host.Outcome State Fault Refusal :=
  let d := p.die.val
  let q := p.port.val
  .next (if s.lstate d q ≠ 1 then s
    else
      let t := s.endTraining d q tx.toNat rx.toNat
      let b := t.fstat 3 5
      if t.fstat 0 3 = 3 && (b = d || (partner d q).map (·.1) == some b) then t.readmitStep else t)

/-- Transit packets stand in the Bench: they wait at an output port for their next link. -/
def State.inTransit (s : State) (b : Nat) : Bool := (List.range 5).any (fun q => (s.port b q).out.any (fun x => x.cell.isSome))

/-- FENCE_QUIET (R282): no transit packet has passed the Bench for 4,096 link cycles after step 5. -/
def execFenceQuiet (s : State) : Host.Outcome State Fault Refusal :=
  .next (if s.fstat 0 3 = 2 && !s.inTransit (s.fstat 3 5) then s.setFstat 9 1 1 else s)

/-- FENCE_ENTER_TIMEOUT (R285): no answer to an ENTER in discard mode; the Bench stays marked fenced. -/
def execFenceEnterTimeout (s : State) : Host.Outcome State Fault Refusal :=
  let b := s.fstat 3 5
  .next (if s.fstat 0 3 ≠ 1 || s.fstat 8 1 = 0 || s.fm.after = 1 then s
    else ((s.fabricLog b 0x0A31).setFstat (16 + b) 1 1).fenceEnds 2)

/-! ### Discovery (R272, R273, R393) -/

/-- The links in the order of discovery, each once: the Weighbridge's, then row by row E, N and spur of each Bench. -/
def linkOrder : List (Nat × Nat) :=
  (List.range 4).map (fun p => (20, p)) ++ (List.range 16).flatMap (fun d => ([portE, portN, portSpur].map (fun p => (d, p))).filter
    (fun x => (partner x.1 x.2).isSome))

/-- The die at whose number a link's DISC is aimed: the far end of the Weighbridge's ports, the Stockpile of a spur, else the partner. -/
def farDie (x : Nat × Nat) : Nat := ((partner x.1 x.2).map (·.1)).getD x.1

/-- A boot code recorded (R405). -/
def State.bootCode (s : State) (page die code : Nat) : State := s.setReg 20 8 Off.wbgBcode (w32 (page * 2 ^ 24 + die * 2 ^ 16 + code))

/-- A Bench is absent (R393). DEDUCED: log entry 99. -/
def State.absent (s : State) (b code : Nat) : State := (s.setFld 20 8 Off.wbgAbsent b 1 1).bootCode 0 b code

/-- One link of discovery: it is trained, and its DISC is answered. DEDUCED: log entry 61. -/
def State.discoverLink (s : State) (rep : DiscoveryReport) (x : Nat × Nat) : State :=
  let e := farDie x
  let bench := if x.1 < 16 then x.1 else e
  if s.lstate x.1 x.2 = 6 then s
  else
    let same := fun (r : LinkReport) => (r.port.die.val, r.port.port.val)
    let r := rep.links.find? (fun r => same r == x || some (same r) == partner x.1 x.2)
    let on := (x.1 == 20 || s.uncoreOn x.1) && s.uncoreOn e
    match r with
    | some r =>
      let turn := same r != x
      let tx := if turn then r.rx.toNat else r.tx.toNat
      let rx := if turn then r.tx.toNat else r.rx.toNat
      let s := (s.startTraining x.1 x.2).endTraining x.1 x.2 (if on then tx else 0) (if on then rx else 0)
      if s.lstate x.1 x.2 ≠ 2 then s.fabricLog bench 0x0A10
      else
        let die := if turn then x.1 else e
        if !r.numberOk then s.fabricLog (if die < 16 then die else bench) 0x0A11
        else if !r.typeOk then s.fabricLog (if die < 16 then die else bench) 0x0A12
        else { s with dieNum := smSet (fun _ => 0) (smSet (fun _ => 0) s.dieNum e (e + 1)) x.1 (x.1 + 1) }
    | none => ((s.startTraining x.1 x.2).endTraining x.1 x.2 0 0).fabricLog bench 0x0A10

/-- The dies whose number or type disagreed. -/
def disagreeing (rep : DiscoveryReport) : List Nat :=
  (rep.links.filter (fun r => !r.numberOk || !r.typeOk)).filterMap (fun r => (partner r.port.die.val r.port.port.val).map (·.1))

/-- Every die's table computed and loaded at once, as boot does (R272). -/
def State.loadTables (s : State) : State :=
  let tables := s.liveDies.map (fun d => (d, s.routeTable d))
  tables.foldl (fun s x => s.takeTable x.1 x.2) s

/-- Discovery (R272, R273): ports marked, links trained in order, dies confirmed, Benches that no route reaches absent, and every
die's table loaded; then every page of every die is asked for its registers (R337). DEDUCED: log entry 61. -/
def State.discover (s : State) (rep : DiscoveryReport) : State :=
  let s := (List.range 21).foldl (fun s d => s.resetPorts d) s
  let s := linkOrder.foldl (fun s x => s.discoverLink rep x) s
  let s := (disagreeing rep).foldl (fun s d => s.portsDown d) s
  let s := ((List.range 16).filter (fun b => !s.isRetired b && (s.computeRoute 20 b).isNone)).foldl (fun s b => s.absent b 0x0F11) s
  let s := s.loadTables
  let ends := fun (v : Nat) => linkOrder.countP (fun x => s.lstate x.1 x.2 == v)
  let ds := (List.range 21).filter (fun d => !(decide (d < 16) && s.isRetired d))
  let cut := ds.any (fun a => ds.any (fun b => (s.computeRoute a b).isNone))
  let s := s.setReg 20 0x80 Off.lnkDisc (w32 (ends 2 + 256 * ends 4 + 2 ^ 16 * cut.toNat + 2 ^ 17))
  (s.liveDies.filter (· != 20)).foldl (fun s d => s.askShadows d) (s.raise 20 0x80 0x100000)

end Sys2Proof.Machine
end

