-- ==== Sys2Proof/Machine/Power.lean ====
section
/-!
DEFINITION. The Safety Partition (R407 to R431): the fault log, the policy, frequencies, power domains, the request mailbox, input
limits, temperatures, the watchdog, the brake, trips, and the panel resets.
-/

namespace Sys2Proof.Machine

/-! ### Records (R427 to R429) -/

/-- STAT.BLK bits of the SAF_ global page. -/
abbrev safTrip : Nat := 16
/-- FAULT_N asserted. -/
abbrev safFaultn : Nat := 17
/-- THERM_ALERT_N asserted. -/
abbrev safAlert : Nat := 18
/-- PWR_BRAKE_N asserted. -/
abbrev safBrake : Nat := 19
/-- The policy is the bundle's. -/
abbrev safPolicy : Nat := 20

/-- A bit of SAF_ STAT. -/
def State.safBit (s : State) (i : Nat) : Bool := wbit (s.reg 22 0 Off.stat) i

/-- A bit of SAF_ STAT set or cleared. -/
def State.setSaf (s : State) (i : Nat) (v : Bool) : State := s.setFld 22 0 Off.stat i 1 v.toNat

/-- An entry of the fault log (R429). DESIGN CHOICE: log entry 101. -/
def State.faultLog (s : State) (code die unit value : Nat) : State :=
  let n := s.reg 22 0x40 Off.safFlogn
  let k := wfld n 0 6
  let o := Off.safFlog + 16 * k
  let s := ((s.setReg 22 0x40 o (s.reg 22 0 Off.safTimeLo)).setReg 22 0x40 (o + 4) (s.reg 22 0 Off.safTimeHi)).setReg 22 0x40 (o + 8)
    (w32 (code + die * 2 ^ 16 + unit * 2 ^ 24))
  let s := (s.setReg 22 0x40 (o + 12) (w32 value)).setReg 22 0x40 Off.safFlogn (w32 ((k + 1) % 64 + min 65535 (wfld n 16 16 + 1) * 2 ^ 16))
  s.raise 22 0 0x10000

/-! ### The policy (R410) -/

/-- A field of a policy body. -/
def polField (p : List Byte) (off n : Nat) : Nat := leNat ((p.drop off).take n)

/-- A field of the policy in force. -/
def State.pol (s : State) (off n : Nat) : Nat := polField s.safety.policy off n

/-- A policy body within its bounds. -/
def policyOk (p : List Byte) : Bool :=
  let f := polField p
  let triple := fun (o : Nat) => decide (f o 1 < f (o + 1) 1) && decide (f (o + 1) 1 < f (o + 2) 1)
    && (List.range 3).all (fun i => decide (f (o + i) 1 ≤ polField builtinPolicy (o + i) 1))
  let mask := fun (m : Nat) => fld m 0 1 == 0 && fld m 8 8 == 0
  p.length == 64 && decide (100 ≤ f 0 2) && decide (f 0 2 ≤ 3600) && decide (f 0 2 ≤ f 2 2) && decide (f 2 2 ≤ 4000)
    && decide (3000 ≤ f 4 2) && decide (f 4 2 ≤ 3200) && decide (4000 ≤ f 6 2) && decide (f 6 2 ≤ 4200)
    && triple 8 && triple 0xB && triple 0xE && decide (6 ≤ f 0x11 1) && decide (f 0x11 1 ≤ 18) && decide (f 0x12 1 ≤ 5)
    && decide (1 ≤ f 0x13 1) && decide (f 0x13 1 ≤ 16) && decide (f 0x14 4 ≤ 60000) && decide (f 0x18 1 ≤ 3) && f 0x19 1 == 0
    && mask (f 0x1C 2) && mask (f 0x1E 2) && f 0x20 32 == 0

/-! ### Frequencies (R418, R420, R430) -/

/-- The thermal ceiling of a Bench. -/
def State.thermCeil (s : State) (b : Nat) : Nat := smGet (fun _ => 18) s.safety.thermCeil b

/-- The mailbox ceiling of a Bench. -/
def State.mailCeil (s : State) (b : Nat) : Nat := s.rfld 22 0x30 (Off.safFceil + 4 * (b / 4)) (8 * (b % 4)) 8

/-- The lowest ceiling of a Bench (R418). DEDUCED: log entry 89. -/
def State.freqCeil (s : State) (b : Nat) : Nat :=
  let c := min (min (s.mailCeil b) (s.pol 0x11 1)) (min s.safety.curCeil (s.thermCeil b))
  if s.safety.brakeCap then min 12 c else c

/-- The code in force for a Bench, in SAF_FCUR and CPV_FREQ. DEDUCED: log entry 89. -/
def State.setFreq (s : State) (b c : Nat) : State :=
  (s.setFld 22 0x30 (Off.safFcur + 4 * (b / 4)) (8 * (b % 4)) 8 c).setFld b 0xF0 Off.cpvFreq 0 11 (100 * c)

/-- CPV_FREQ.CEIL and CPV_CAUSE of a powered Bench brought up to date. DEDUCED: log entry 89. -/
def State.refreshFreq (s : State) (b : Nat) : State :=
  if !s.uncoreOn b then s
  else
    let c := s.freqCeil b
    let lim := [(s.safety.brake, 1), (s.thermCeil b == c && c != 18, 2), (s.safety.curCeil == c && c != 18, 4),
      (min (s.mailCeil b) (s.pol 0x11 1) == c, 8), (s.safety.brakeCap && c == 12, 16)]
    (s.setFld b 0xF0 Off.cpvFreq 16 11 (100 * c)).setReg b 0xF0 Off.cpvCause (w32 ((lim.filter (·.1)).map (·.2)).sum)

/-- Every Bench's ceilings brought up to date. -/
def State.refreshAll (s : State) : State := (List.range 16).foldl (fun s b => s.refreshFreq b) s

/-- A policy body takes force (R410). DESIGN CHOICE: log entry 101. -/
def State.applyPolicy (s : State) (p : List Byte) (psvn : Nat) (bundle : Bool) : State :=
  let s := { s with safety := { s.safety with policy := p } }
  let f := polField p
  let t := fun (s : State) (i o : Nat) => s.setReg 22 0x20 (Off.safTlim0 + 4 * i) (w32 (f o 1 + 256 * f (o + 1) 1 + 65536 * f (o + 2) 1))
  let s := t (t (t s 0 8) 1 0xB) 2 0xE
  let s := (s.setReg 22 0x18 Off.safIlim (w32 (f 0 2 + 65536 * f 2 2))).setReg 22 0x30 Off.safSpread (w32 (f 0x12 1))
  let s := ((s.setFld 22 0x28 Off.safWdcfg 24 2 (f 0x18 1)).setReg 22 0 Off.safPolsvn (w32 psvn)).setSaf safPolicy bundle
  s.refreshAll

/-- PLL_RAMP_STEP (R418): a Bench's frequency moves by 100 MHz towards its ceiling. DEDUCED: log entry 89. -/
def execPllRampStep (b : BenchId) (s : State) : Host.Outcome State Fault Refusal :=
  let c := s.freqCeil b.val
  let f := s.rfld 22 0x30 (Off.safFcur + 4 * (b.val / 4)) (8 * (b.val % 4)) 8
  .next (if !s.uncoreOn b.val then s else if f < c then s.setFreq b.val (f + 1) else if c < f then s.setFreq b.val (f - 1) else s)

/-! ### Power domains (R411 to R413) -/

/-- A domain is on. -/
def State.domOn (s : State) (n : Nat) : Bool := wbit (s.reg 22 0x10 (if n < 32 then Off.safDomon0 else Off.safDomon1)) (n % 32)

/-- A domain's bit in SAF_DOMON and in the die's CPV_DOM. -/
def State.setDomain (s : State) (n : Nat) (v : Bool) : State :=
  let s := s.setFld 22 0x10 (if n < 32 then Off.safDomon0 else Off.safDomon1) (n % 32) 1 v.toNat
  if n < 16 then s.setFld n 0xF0 Off.cpvDom 0 1 v.toNat
  else if n < 32 then s.setFld (n - 16) 0xF0 Off.cpvDom 1 1 v.toNat
  else if 40 ≤ n && n < 44 then s.setFld (n - 24) 0xF0 Off.cpvDom 1 1 v.toNat
  else if n = 44 then s.setFld 20 0xF0 Off.cpvDom 1 1 v.toNat
  else if n = 46 then s.setFld 21 0xF0 Off.cpvDom 1 1 v.toNat
  else s

/-- The domain that a domain needs (R411). -/
def needs (n : Nat) : Nat := if n < 16 then 16 + n else if n < 44 then 44 else if n < 47 then (if n = 44 then 47 else 44) else 47

/-- The links whose PHYs a spine domain powers, by one end. -/
def spineLinks (n : Nat) : List (Nat × Nat) :=
  if n < 36 then (List.range 3).map (fun x => (x + 4 * (n - 32), portE))
  else (20, n - 36) :: (List.range 3).map (fun y => (n - 36 + 4 * y, portN))

/-- The Slabs of a Bench after their domain has lost power. -/
def State.resetSlabs (s : State) (b : Nat) : State :=
  (List.range 24).foldl (fun s i =>
    let s := ((s.clearPage b (0x20 + i)).zeroSlab b i).loadColumns b i
    { s with shadow := smClear s.shadow (fun k => keyDie k == b && keyPage k == 0x20 + i) }.noteIrq b (0x20 + i)) s

/-- The memories of a die of the panel that lose power: tier N of a Bench, tier C of a Stockpile.
DESIGN CHOICE: log entry 4. DEDUCED: log entry 88. -/
def State.loseTier (s : State) (d : Nat) : State :=
  let mine := fun (l : Nat) => locDie l == d && (locRegion l == 1 || locRegion l == 2)
  { s with mem := smClear s.mem mine, keyTags := smClear s.keyTags mine, badLines := smClear s.badLines mine }

/-- A domain comes on: its die leaves reset (R412, R424). -/
def State.domainComes (s : State) (n : Nat) : State :=
  let s := s.setDomain n true
  if n < 16 then s.resetSlabs n
  else if n < 32 then
    let b := n - 16
    let s := s.resetBench b
    let s := { s with safety := { s.safety with pllOut := s.safety.pllOut &&& (65535 - 2 ^ b) } }
    ((s.refreshFreq b).setFreq b (s.freqCeil b)).askShadows b
  else if 40 ≤ n && n < 44 then (s.resetStockpile (n - 24)).askShadows (n - 24)
  else s

/-- A domain goes off with its state lost (R286, R413). -/
def State.domainGoes (s : State) (n : Nat) : State :=
  let s := s.setDomain n false
  if n < 16 then s.resetSlabs n
  else if n < 32 then
    let b := n - 16
    let s := (((s.portsDown b).resetBench b).loseTier b).setFreq b 0
    (s.setReg b 0xF0 Off.cpvFreq 0).setReg b 0xF0 Off.cpvCause 0
  else if n < 40 then s.linksDown (spineLinks n)
  else if n < 44 then ((s.portsDown (n - 24)).resetStockpile (n - 24)).loseTier (n - 24)
  else s

/-- SAF_DOMBUSY shows the first domain that is switching. DEDUCED: log entry 88. -/
def State.showBusy (s : State) : State :=
  s.setReg 22 0x10 Off.safDombusy (w32 (match s.safety.switching with | (n, _) :: _ => 2 ^ 31 + n | [] => 0))

/-- A domain begins to switch. DEDUCED: log entry 88. -/
def State.beginSwitch (s : State) (n : Nat) (on : Bool) : State :=
  let s := { s with safety := { s.safety with switching := s.safety.switching ++ [(n, on)] } }
  s.showBusy

/-- Power-up goes on after a domain has come on (R412): 44, 45, 46, then 32 to 43 together and the uncore domains of the Benches that
are not retired, four at a time. -/
def State.powerNext (s : State) (n : Nat) : State :=
  if !s.safety.powering then s
  else if n = 44 then s.beginSwitch 45 true
  else if n = 45 then s.beginSwitch 46 true
  else
    let benches := (List.range 16).filter (fun b => !s.isRetired b)
    let busy := fun (b : Nat) => s.safety.switching.any (fun x => x.1 == 16 + b)
    let left := benches.filter (fun b => !s.domOn (16 + b) && !busy b)
    let room := 4 - benches.countP busy
    let s := if n = 46 then (List.range 12).foldl (fun s i => s.beginSwitch (32 + i) true) s else s
    let s := (left.take room).foldl (fun s b => s.beginSwitch (16 + b) true) s
    if s.safety.switching.isEmpty then { s with safety := { s.safety with powering := false, powered := true } } else s

/-- Power-up begins. -/
def State.powerUp (s : State) : State :=
  let s := { s with safety := { s.safety with powering := true, powered := false, switching := [] } }
  s.beginSwitch 44 true

/-! ### The request mailbox (R408, R409, R413, R422) -/

/-- A request ends (R408). -/
def State.endSmb (s : State) (code res : Nat) : State :=
  let m := s.reg 22 8 Off.safMbstat
  let s := s.setReg 22 8 Off.safMbstat (w32 (wfld m 30 1 * 2 ^ 30 + (wfld m 16 8 + 1) % 256 * 2 ^ 16 + code))
  let s := s.setReg 22 8 Off.safMbres (w32 res)
  { s with safety := { s.safety with mail := none } }.raise 22 0 0x80000

/-- A write of WBG_SMB_GO by an agent (R408): the mailbox is copied; a reserved OP ends at once. -/
def State.smbGo (s : State) (a : Agent) : State :=
  if wbit (s.reg 22 8 Off.safMbstat) 31 then s.setFld 22 8 Off.safMbstat 30 1 1
  else
    let op := s.rfld 20 0x70 Off.wbgSmbOp 0 8
    let m : Mailbox := ⟨a, op, 0, (s.reg 20 0x70 Off.wbgSmbArg0).toNat, (s.reg 20 0x70 Off.wbgSmbArg1).toNat, [], [], []⟩
    let s := (s.setFld 22 8 Off.safMbstat 30 2 2)
    let s := { s with safety := { s.safety with mail := some m } }
    if op = 0 || 7 < op then s.endSmb 0x1001 0 else s

/-- An argument within its range (R409, R411). -/
def smbArgs (m : Mailbox) : Bool :=
  match m.op with
  | 1 | 2 => decide (m.arg0 ≤ 43) && m.arg1 == 0
  | 3 => decide (m.arg0 ≤ 15) && m.arg1 == 0
  | 4 => decide (m.arg0 < 65536)
  | 5 => decide (m.arg0 ≤ 60000) && m.arg1 == 0
  | _ => m.arg0 == 0 && m.arg1 == 0

/-- A page among a list is enabled. -/
def State.anyOn (s : State) (l : List (Nat × Nat)) : Bool := l.any (fun x => s.en x.1 x.2)

/-- DOM_OFF finds the domain in use (R413). -/
def State.domainUsed (s : State) (n : Nat) : Bool :=
  if n < 16 then s.anyOn ((List.range 24).map (fun i => (n, 0x20 + i)))
  else if n < 32 then
    let b := n - 16
    !((s.fencedOut b && wbit (s.reg 20 0x80 Off.lnkFstat) 9 && nbit (s.fstat 16 16) b) || wbit (s.reg 20 8 Off.wbgAbsent) b)
  else if n < 40 then s.anyOn ((spineLinks n).flatMap (fun x => (x.1, lnkPage x.2) :: ((partner x.1 x.2).toList.map (fun y => (y.1, lnkPage y.2)))))
  else s.anyOn ((List.range 4).map (fun k => (n - 24, 0x10 + k)))

/-- The checks of a request, lowest first (R409): 0 where it may act. -/
def State.smbCode (s : State) (m : Mailbox) : Nat :=
  let mask := if m.agent = .host then s.pol 0x1C 2 else if m.agent = .fw then s.pol 0x1E 2 else 0
  if !smbArgs m then 0x1001
  else if !nbit mask m.op then 0x1002
  else match m.op with
    | 1 => if s.domOn m.arg0 then 0 else if m.arg0 < 32 && s.isRetired (m.arg0 % 16) then 0x1005 else if !s.domOn (needs m.arg0) then 0x1003 else 0
    | 2 => if !s.domOn m.arg0 then 0
      else if 16 ≤ m.arg0 && m.arg0 < 32 && s.domOn (m.arg0 - 16) then 0x1003
      else if s.domainUsed m.arg0 then 0x1004 else 0
    | 3 => if s.isRetired m.arg0 || !wbit (s.reg m.arg0 0xF0 Off.cpvDom) 1 then 0x1005
      else if s.benchCtx m.arg0 ≠ 0 && !nbit (s.fstat 16 16) m.arg0 then 0x1004 else 0
    | 4 => if m.arg1 < 6 || 18 < m.arg1 then 0x1006 else 0
    | 7 => if s.boot.state = 4 || s.safBit safTrip || s.safety.pllOut ≠ 0 then 0x1004 else 0
    | _ => 0

/-- The watchdog's period, and its count restarted. -/
def State.armWatchdog (s : State) (ms : Nat) : State :=
  let s := (s.setFld 22 0x28 Off.safWdcfg 0 24 ms).setFld 22 0x28 Off.safWdcfg 31 1 (if ms = 0 then 0 else 1)
  let s := { s with safety := { s.safety with expired := false } }
  s.setReg 22 0x28 Off.safWdrem (w32 ms)

/-- The controller takes the pending request of one OP, checks it and acts. -/
def State.takeSmb (s : State) (op : Nat) (act : State → Mailbox → State) : State :=
  match s.safety.mail with
  | some m =>
    if m.op ≠ op || ((op = 1 || op = 2) && s.safety.switching.any (fun x => x.1 == m.arg0)) then s
    else let c := s.smbCode m; if c ≠ 0 then s.endSmb c 0 else act s m
  | none => s

/-- DOM_ON. -/
def execDomOn (s : State) : Host.Outcome State Fault Refusal :=
  .next (s.takeSmb 1 (fun s m => if s.domOn m.arg0 then s.endSmb 0 m.arg0 else s.beginSwitch m.arg0 true))

/-- DOM_OFF. -/
def execDomOff (s : State) : Host.Outcome State Fault Refusal :=
  .next (s.takeSmb 2 (fun s m => if s.domOn m.arg0 then s.beginSwitch m.arg0 false else s.endSmb 0 m.arg0))

/-- DOMAIN_SWITCH_DONE (R411, R412): the first of the switching domains ends, and with it the request that asked for it; power-up goes
on. -/
def execDomainSwitchDone (s : State) : Host.Outcome State Fault Refusal :=
  .next (match s.safety.switching with
    | [] => s
    | (n, on) :: rest =>
      let s := { s with safety := { s.safety with switching := rest } }
      let s := (if on then s.domainComes n else s.domainGoes n).showBusy
      let s := match s.safety.mail with
        | some m => if m.op = (if on then 1 else 2) && m.arg0 = n then s.endSmb 0 n else s
        | none => s
      if on then s.powerNext n else s)

/-- BENCH_RESET (R353, R409): the commands that have work on the Bench end with STATUS 6. -/
def execBenchReset (s : State) : Host.Outcome State Fault Refusal :=
  .next (s.takeSmb 3 (fun s m =>
    let b := m.arg0
    let s := ((s.endWork b 6 0x0D51 20).portsDown b).resetBench b
    (s.setFld 22 0x38 Off.safBreset b 1 1).endSmb 0 0))

/-- SET_FREQ. -/
def execSetFreq (s : State) : Host.Outcome State Fault Refusal :=
  .next (s.takeSmb 4 (fun s m =>
    let s := (bitList 16 m.arg0).foldl (fun s b => s.setFld 22 0x30 (Off.safFceil + 4 * (b / 4)) (8 * (b % 4)) 8 m.arg1) s
    s.refreshAll.endSmb 0 m.arg1))

/-- WD_ARM. -/
def execWdArm (s : State) : Host.Outcome State Fault Refusal := .next (s.takeSmb 5 (fun s m => (s.armWatchdog m.arg0).endSmb 0 0))

/-- WD_KICK. -/
def execWdKick (s : State) : Host.Outcome State Fault Refusal :=
  .next (s.takeSmb 6 (fun s _ =>
    let s := { s with safety := { s.safety with expired := false } }
    (s.setReg 22 0x28 Off.safWdrem (w32 (s.rfld 22 0x28 Off.safWdcfg 0 24))).endSmb 0 0))

/-- FAULT_CLR. -/
def execFaultClr (s : State) : Host.Outcome State Fault Refusal :=
  .next (s.takeSmb 7 (fun s _ => (s.setSaf safFaultn false).endSmb 0 0))

/-! ### Stage 0 of boot (R391, R393) -/

/-- Boot stops for good (R393, R422). -/
def State.bootFatal (s : State) (page die code : Nat) : State :=
  let s := { s with boot := { s.boot with state := 4, code := code } }
  ((s.bootCode page die code).raise 20 8 0x20000).setSaf safFaultn true

/-- A boot stage has ended: WBG_BSTAGEn holds the time, which the model leaves free. -/
def State.endStage (s : State) (n : Nat) : State := (s.setReg 20 8 (Off.wbgBstage + 4 * n) (Config.stageTime s.fresh)).draw

/-- The boot ROM. -/
def romBytes : List Byte := (List.range Config.romSize).map Config.romByte

/-- Stage 0 (R391, R402): the ROM and the random generator are checked, and the ROM entry is written; with the PCIe link up, the boot
window opens. DEDUCED: log entry 91. -/
def State.bootStage0 (s : State) : State :=
  let s := { s with boot := { s.boot with waiting := false } }
  if !s.boot.rom then s.bootFatal 0 0 0x0F01
  else if !s.boot.drbg then s.bootFatal 0 0 0x0F02
  else
    let s := (s.measure 1 0 Config.romSize (sha256 romBytes)).endStage 0
    let s := if s.boot.linkUp then s.endStage 1 else s
    { s with boot := { s.boot with begun := true, stage := if s.boot.linkUp then 4 else 1, state := if s.boot.linkUp then 1 else 0 } }

/-! ### Resets of the panel (R424 to R426) -/

/-- The request that a trip or a panel reset ends (R409). -/
def State.dropSmb (s : State) : State := if s.safety.mail.isSome then s.endSmb 0x100F 0 else s

/-- Every die but the Safety Partition is reset; the built-in policy applies again (R410, R424). -/
def State.resetDies (s : State) : State :=
  let s := (s.resetCarapace).resetWeighbridge
  let s := (List.range 4).foldl (fun s q => s.resetStockpile (16 + q)) s
  let s := (List.range 16).foldl (fun s b => s.resetBench b) s
  s.applyPolicy builtinPolicy 0 false

/-- PCIe function reset of the configuration space the model holds: MSI-X disabled and unmasked. -/
def State.resetFunction (s : State) : State := { s with msixOn := false, msixFnMask := false }

/-- The fuse array reloaded (R425): the retirements programmed take effect, and a Bench that they name loses its domains and with
them its two stacks, which are never switched on again (R13, R376, R412). -/
def State.retire (s : State) : State :=
  let s := { s with retired := s.fuses.retire }
  let gone := (List.range 16).filter s.isRetired
  let s := { s with safety := { s.safety with switching := s.safety.switching.filter (fun x => !(x.1 < 32 && gone.contains (x.1 % 16))) } }
  gone.foldl (fun s b => [b, 16 + b].foldl (fun s n => if s.domOn n then s.domainGoes n else s) s)
    (if s.safety.switching.isEmpty then s.powerNext 47 else s).showBusy

/-- A panel reset (R425, R426) by a cause. Boot restarts with it (R396): at once, or with PERST_N when that is released.
DEDUCED: log entries 91, 92. -/
def State.panelReset (s : State) (cause : Nat) (fuses counted fn : Bool) : State :=
  let s := s.dropSmb
  let s := if fuses then s.retire else s
  let s := s.resetDies
  let s := if fn then s.resetFunction else s
  let s := s.armWatchdog 0
  if counted then (s.setReg 22 0x38 Off.safRcause (w32 cause)).setReg 22 0x38 Off.safRcnt (s.reg 22 0x38 Off.safRcnt + 1) else s

/-- Every domain but 47 without power: the state of every other die is lost (R411, R415). DEDUCED: log entry 92. -/
def State.loseAll (s : State) : State :=
  let s := (List.range 47).foldl (fun s n => s.setDomain n false) s
  let s := ((List.range 20).foldl (fun s d => s.loseTier d) s).resetDies.resetFunction
  let s := (List.range 16).foldl (fun s b => (s.setReg b 0xF0 Off.cpvFreq 0).setReg b 0xF0 Off.cpvCause 0) s
  let s := (List.range 4).foldl (fun s w => s.setReg 22 0x30 (Off.safFcur + 4 * w) 0) s
  { s with safety := { s.safety with switching := [], powering := false, powered := false }, boot := .empty }.showBusy

/-- A trip (R415); `log` where its cause is not in the fault log yet. DEDUCED: log entry 91. -/
def State.trip (s : State) (log : Bool) (code die unit value : Nat) : State :=
  if s.safBit safTrip then s
  else
    let s := if log then s.faultLog code die unit value else s
    ((s.dropSmb.loseAll).setSaf safTrip true).setSaf safFaultn true

/-- INPUT_IN_RANGE (R390, R412, R426): Safety reset, then the panel reset that is recorded as the first, and power-up.
DEDUCED: log entry 107. -/
def execInputInRange (s : State) : Host.Outcome State Fault Refusal :=
  .next (if s.safety.inputOk then s
    else
      let perst := s.safety.perst
      let brake := s.safety.brake
      let s := s.resetSafety
      let s := { s with safety := { s.safety with inputOk := true, perst := perst, brake := brake } }
      let s := (s.setDomain 47 true).setSaf safBrake brake
      (s.panelReset 0 true true true).powerUp)

/-- INPUT_LOST (R415): every domain, 47 among them, loses power. -/
def execInputLost (s : State) : Host.Outcome State Fault Refusal :=
  .next (if !s.safety.inputOk then s
    else
      let perst := s.safety.perst
      let brake := s.safety.brake
      let s := s.loseAll.resetSafety
      { s with safety := { s.safety with perst := perst, brake := brake } })

/-- PERST_N_ASSERT (R422, R425, R426): a panel reset, counted unless it is part of power-up's own; FAULT_N is released.
DEDUCED: log entry 107. -/
def execPerstNAssert (s : State) : Host.Outcome State Fault Refusal :=
  .next (if s.safety.perst then s
    else
      let s := { s with safety := { s.safety with perst := true } }
      if !s.safety.inputOk then s
      else
        let s := (s.panelReset 1 true (s.safety.powered || s.safBit safTrip) true).setSaf safFaultn false
        { s with boot := { s.boot with linkUp := false } })

/-- PERST_N_RELEASE (R390, R391, R415): stage 0 of boot begins, or waits for the 100 ms mark; after a trip, power-up runs again first. -/
def execPerstNRelease (inputStable romOk drbgOk : Bool) (s : State) : Host.Outcome State Fault Refusal :=
  .next (if !s.safety.perst then s
    else
      let s := { s with safety := { s.safety with perst := false }, boot := { s.boot with rom := romOk, drbg := drbgOk, waiting := true },
                        side := { s.side with drive := 0 } }
      if !s.safety.inputOk then s
      else if s.safBit safTrip then (s.setSaf safTrip false).powerUp
      else if inputStable && s.domOn 44 then s.bootStage0
      else s)

/-- BOOT_100_MS_MARK (R390). -/
def execBoot100MsMark (s : State) : Host.Outcome State Fault Refusal :=
  .next (if s.boot.waiting && s.domOn 44 && !s.safety.perst then s.bootStage0 else s)

/-- HOT_RESET (R425): it comes over the PCIe link, which retrains. DEDUCED: log entry 91. -/
def execHotReset (s : State) : Host.Outcome State Fault Refusal :=
  .next (if !s.boot.linkUp then s
    else
      let s := s.panelReset 2 false true true
      { s with boot := { s.boot with linkUp := false } }.bootStage0)

/-- FUNCTION_LEVEL_RESET (R425): it comes over the PCIe link, which stays up. DEDUCED: log entry 91. -/
def execFunctionLevelReset (s : State) : Host.Outcome State Fault Refusal :=
  .next (if !s.boot.linkUp then s
    else ((s.panelReset 3 false true true).setReg 20 1 Off.wbgLink (s.reg 20 1 Off.wbgLink)).bootStage0)

/-! ### Input limits (R414, R415) -/

/-- INPUT_SAMPLE: one sample of the voltage and of the current. DEDUCED: log entries 6, 90. -/
def execInputSample (volt10mV amp100mA : Nat) (s : State) : Host.Outcome State Fault Refusal :=
  .next (if !s.safety.inputOk then s
    else
      let xs := (amp100mA :: s.safety.samples).take 16
      let overs := if s.pol 2 2 < amp100mA then s.safety.overTrip + 1 else 0
      let out := if volt10mV < s.pol 4 2 || s.pol 6 2 < volt10mV then s.safety.outRange + 1 else 0
      let s := { s with safety := { s.safety with samples := xs, overTrip := overs, outRange := out } }
      let s := (s.setReg 22 0x18 Off.safVin (w32 volt10mV)).setReg 22 0x18 Off.safIin (w32 (xs.sum / xs.length))
      let s := if (s.reg 22 0x18 Off.safIpeak).toNat < amp100mA then s.setReg 22 0x18 Off.safIpeak (w32 amp100mA) else s
      if 4 ≤ overs then s.trip true 0x1007 22 0 amp100mA
      else if 100 ≤ out then s.trip true 0x100A 22 0 volt10mV
      else s)

/-- CURRENT_CEILING_STEP: down while SAF_IIN exceeds ITHR, up once it has stayed below 0.95 × ITHR. -/
def execCurrentCeilingStep (up : Bool) (s : State) : Host.Outcome State Fault Refusal :=
  let i := (s.reg 22 0x18 Off.safIin).toNat
  let c := s.safety.curCeil
  let step := fun (s : State) (c : Nat) => ({ s with safety := { s.safety with curCeil := c } }.bump 22 0x18 Off.safIstep 1).refreshAll
  .next (if up then (if 100 * i < 95 * s.pol 0 2 && c < 18 then step s (c + 1) else s)
    else if s.pol 0 2 < i && 6 < c then (step s (c - 1)).raise 22 0 0x20000
    else s)

/-! ### Temperatures (R416) -/

/-- The class of a sensor: 0 Bench junction, 1 HBM, 2 other. -/
def sensorClass (x : SensorId) : Nat := if x.die.val < 16 then (if x.idx.val < 8 then 0 else 1) else 2

/-- The sensor exists. -/
def sensorReal (x : SensorId) : Bool := decide (x.die.val < 16) || decide (x.idx.val < 2)

/-- A threshold of a sensor's class: 0 alert, 1 throttle, 2 trip. -/
def State.tempLimit (s : State) (x : SensorId) (i : Nat) : Nat := s.pol (8 + 3 * sensorClass x + i) 1

/-- The Benches that a sensor throttles. -/
def sensorBenches (x : SensorId) : List Nat :=
  if x.die.val < 16 then [x.die.val]
  else if x.die.val < 20 then (List.range 16).filter (fun b => quadrant b == x.die.val - 16)
  else List.range 16

/-- The key of a sensor's last reading. -/
def sensorKey (x : SensorId) : Nat := x.die.val * 16 + x.idx.val

/-- Every sensor of the panel. -/
def allSensors : List SensorId :=
  (List.finRange 21).flatMap (fun d => ((List.finRange 10).map (fun i => (⟨d, i⟩ : SensorId))).filter sensorReal)

/-- The sensors of the dies that have power. -/
def State.liveSensors (s : State) : List SensorId := allSensors.filter (fun x => x.die == 20 || s.uncoreOn x.die.val)

/-- The last reading of a sensor. -/
def State.temp (s : State) (x : SensorId) : Nat := smGet (fun _ => 0) s.safety.temps (sensorKey x)

/-- The hottest of a list of sensors, the first among equals. -/
def State.hottest (s : State) (l : List SensorId) : Option SensorId :=
  l.foldl (fun best x => match best with
    | some y => if s.temp y < s.temp x then some x else best
    | none => some x) none

/-- A thermal ceiling moves (R416). DEDUCED: log entry 90. -/
def State.setThermCeil (s : State) (b c : Nat) : State :=
  let s := { s with safety := { s.safety with thermCeil := smSet (fun _ => 18) s.safety.thermCeil b c } }
  (s.bump 22 0x20 Off.safTstep 1).refreshFreq b

/-- TEMP_SAMPLE: the readings, the alert, the ceilings of throttled Benches, and the trip.
DEDUCED: log entries 6, 90. DESIGN CHOICE: log entry 58. -/
def execTempSample (t : List TempReading) (s : State) : Host.Outcome State Fault Refusal :=
  .next (if !s.safety.inputOk then s
    else
      let t := t.filter (fun r => sensorReal r.sensor && (r.sensor.die == 20 || s.uncoreOn r.sensor.die.val))
      let s := { s with safety := { s.safety with temps := t.foldl (fun m (r : TempReading) => smSet (fun _ => 0) m (sensorKey r.sensor) r.degC) s.safety.temps } }
      let s := (t.filter (fun r => sensorClass r.sensor == 1)).foldl (fun s r =>
        s.setFld r.sensor.die.val (0x74 + (r.sensor.idx.val - 8)) Off.hbmTemp 0 8 r.degC) s
      let s := (List.range 16).foldl (fun s i => if s.uncoreOn (16 + i / 4)
        then (s.setReg (16 + i / 4) (0x10 + i % 4) Off.stkTemp (w32 (Config.packageTemp s.fresh).toNat)).draw else s) s
      let s := (List.finRange 21).foldl (fun s d => match s.hottest (s.liveSensors.filter (fun x => x.die == d)) with
        | some x => s.setReg d.val 0xF0 Off.cpvTemp (w32 (s.temp x))
        | none => s) s
      let s := match s.hottest s.liveSensors with
        | some x => s.setReg 22 0x20 Off.safTmax (w32 (min 255 (s.temp x) + 256 * sensorClass x + 65536 * x.die.val))
        | none => s
      let s := s.setSaf safAlert (s.liveSensors.any (fun x => decide (s.tempLimit x 0 < s.temp x)))
      let hot := (t.filter (fun r => decide (s.tempLimit r.sensor 1 < r.degC))).flatMap (fun r => sensorBenches r.sensor)
      let s := (List.range 16).foldl (fun s b =>
        if hot.contains b && 6 < s.thermCeil b then (s.setThermCeil b (s.thermCeil b - 1)).raise 22 0 0x20000 else s) s
      match t.find? (fun (r : TempReading) => decide (s.tempLimit r.sensor 2 < r.degC)) with
      | some r => s.trip true 0x1008 r.sensor.die.val r.sensor.idx.val r.degC
      | none => s)

/-- THERMAL_CEILING_STEP: a ceiling rises once its sensor has stayed 5 °C below throttle. DEDUCED: log entry 90. -/
def execThermalCeilingStep (x : SensorId) (s : State) : Host.Outcome State Fault Refusal :=
  .next (if !sensorReal x || s.tempLimit x 1 < s.temp x + 5 then s
    else (sensorBenches x).foldl (fun s b => if s.thermCeil b < 18 then s.setThermCeil b (s.thermCeil b + 1) else s) s)

/-! ### PLL, brake, watchdog (R418 to R422) -/

/-- PLL_LOCK_LOST (R418, R422): the Bench loses its domains, and FAULT_N is asserted. DEDUCED: log entry 92. -/
def execPllLockLost (b : BenchId) (s : State) : Host.Outcome State Fault Refusal :=
  let n := b.val
  .next (if !s.domOn (16 + n) then s
    else
      let s := ((s.faultLog 0x100B n 0 0).setFld 22 0x30 Off.safPlllost n 1 1).setSaf safFaultn true
      let s := { s with safety := { s.safety with pllOut := s.safety.pllOut ||| 2 ^ n } }
      (s.domainGoes n).domainGoes (16 + n))

/-- Every powered Bench braked or released. -/
def State.setBrake (s : State) (v : Bool) : State :=
  let s := { s with safety := { s.safety with brake := v } }
  let s := s.setSaf safBrake v
  (List.range 16).foldl (fun s b =>
    if !s.uncoreOn b then s
    else
      let s := s.updBench b (fun x => { x with braked := v })
      (if v then s.bump b 0xF0 Off.cpvBrakes 1 else s).refreshFreq b) s

/-- PWR_BRAKE_N_ASSERT. DEDUCED: log entry 107. -/
def execPwrBrakeNAssert (s : State) : Host.Outcome State Fault Refusal := .next (if s.safety.brake then s else s.setBrake true)

/-- PWR_BRAKE_N_RELEASE. -/
def execPwrBrakeNRelease (s : State) : Host.Outcome State Fault Refusal := .next (if s.safety.brake then s.setBrake false else s)

/-- BRAKE_CAP (R420). -/
def execBrakeCap (s : State) : Host.Outcome State Fault Refusal :=
  .next (if !s.safety.brake || s.pol 0x1A 2 = 0 || s.safety.brakeCap then s
    else { s with safety := { s.safety with brakeCap := true } }.refreshAll)

/-- BRAKE_CAP_LIFT (R420). -/
def execBrakeCapLift (s : State) : Host.Outcome State Fault Refusal :=
  .next (if s.safety.brake || !s.safety.brakeCap then s else { s with safety := { s.safety with brakeCap := false } }.refreshAll)

/-- WATCHDOG_EXPIRY (R421): the first records; a second without a kick between acts under WDACT. DEDUCED: log entries 11, 91. -/
def execWatchdogExpiry (s : State) : Host.Outcome State Fault Refusal :=
  .next (if !wbit (s.reg 22 0x28 Off.safWdcfg) 31 then s
    else
      let second := s.safety.expired
      let act := s.rfld 22 0x28 Off.safWdcfg 24 2
      let s := ((s.bump 22 0x28 Off.safWdexp 1).faultLog 0x1009 22 0 0).raise 22 0 0x40000
      let s := s.setReg 22 0x28 Off.safWdrem (w32 (s.rfld 22 0x28 Off.safWdcfg 0 24))
      let s := { s with safety := { s.safety with expired := true } }
      if !second || act = 0 then s
      else
        let s := s.setSaf safFaultn true
        if act = 2 then ((s.panelReset 4 false true false).setReg 20 1 Off.wbgLink (s.reg 20 1 Off.wbgLink)).bootStage0
        else if act = 3 then s.trip false 0x1009 22 0 0
        else s)

end Sys2Proof.Machine
end

