-- ==== Sys2Proof/Machine/Checks.lean ====
section
/-!
DEFINITION. What a page shows and what its consistency check tests: the block's value of every register (R37), and the checks of R28 to
R32 as each block's chapter lists them.
-/

namespace Sys2Proof.Machine

/-! ### The block's values (R37) -/

/-- A register of a page, where the tables define one at that offset: the route tables only on page 0x80, and the fabric manager's
registers only on page 0x80 of die 20 (R288 to R290). DEDUCED: log entry 95. -/
def regOf (d p o : Nat) : Option RegDesc :=
  match pageKind d p with
  | none => none
  | some k =>
    if k = .lnk && ((decide (0xC00 ≤ o) && p != 0x80) || (decide (0xE00 ≤ o) && d != 20)) then none else regAt k o

/-- Bits at positions, from their truth values. -/
def bitsAt (l : List (Nat × Bool)) : Nat := l.foldl (fun n x => n + (if x.2 then 2 ^ x.1 else 0)) 0

/-- Speculative lines of a Bench (R239, R331). DEDUCED: log entry 93. -/
def State.specLines (s : State) (b : Nat) : Nat := lineCount 128 (inSpecWays b) none (s.bench b).held

/-- The places that a job's next request may name: that of a write that waits to be combined, and that of its next access. -/
def State.headPlaces (s : State) (b : Nat) (j : Job) : List Nat :=
  let at_ := fun (d : Side) (wr : Bool) => match s.find b d wr with
    | .at l _ => [l]
    | _ => []
  (j.half.map (·.place)).toList ++ match j.todo.head? with
    | some (.get d _ _) => at_ d false
    | some (.build d _ _) | some (.add d _ _) => at_ d true
    | some (.atom va _ _ _ _ _ _) => at_ (.virt va) true
    | some (.line va) => at_ (.virt va) false
    | _ => []

/-- Some request of the Bench is held by the bank cap (R231). DEDUCED: log entry 97. -/
def State.capNow (s : State) (b : Nat) : Bool :=
  (s.bench b).jobs.any (fun e => match e.2 with
    | some j => j.slotHeld && (s.headPlaces b j).any (fun l => s.capped b (bankOf l))
    | none => false)

/-- Requests that wait in a Stockpile (R255). DESIGN CHOICE: log entry 57. -/
def State.rqQueued (s : State) (d : Nat) : Nat := s.fabric.countP (fun p => isRequest p && p.ddie.toNat == d)

/-- STAT.BLK of the pages whose bits follow from the block's work; `none` where they are kept in the register itself.
DEDUCED: log entry 97. -/
def State.statBlk (s : State) (d p : Nat) : Option Nat :=
  let f := fun (u : Nat) => s.face d u
  match pageKind d p with
  | some .fcc =>
    let u := p - 0x10
    some (bitsAt [(16, (f u).parked), (17, s.excValid d u), (18, (f u).swap.isSome), (19, (f u).bank)])
  | some .mlt => some (bitsAt [(16, (f 6).parked), (17, s.excValid d 6), (18, (f 6).bank), (19, (f 6).swap.isSome), (20, (f 6).waitWindow != 0)])
  | some .slb =>
    let i := p - 0x20
    let x := s.slab d i
    let names := fun (op : RunOp) => op.slabs.contains (i % 4)
    some (bitsAt [(16, x.bank0.valid), (17, x.bank1.valid), (18, (f (i / 4)).streams.any names), (19, (f (i / 4)).drain.any names),
      (20, (s.bench d).braked), (21, wbit (s.reg d p Off.stat) 21)])
  | some .chu => some (bitsAt [(16, !(f (p - 0x40)).chute.isEmpty), (17, (s.bench d).braked)])
  | some .vec =>
    let x := f (p - 0x48)
    some (bitsAt [(16, !x.tileQ.isEmpty), (17, decide (8 ≤ x.tileQ.length)), (18, x.waitWindow != 0)])
  | some .wev => some (bitsAt [(16, (f (p - 0x50)).weevil.isSome)])
  | some .siv =>
    let x := f (p - 0x58)
    some (bitsAt [(16, x.sieveD.isSome), (17, x.sieveV.isSome), (18, x.sieveD.any (·.closing)), (19, x.sieveV.any (·.closing))])
  | some .hlr =>
    let k := p - 0x60
    some (bitsAt [(16, (s.job d k).isSome), (17, s.pendingKicks d k != 0 || (s.job d k).any (·.kick.isSome)), (18, (s.job d k).any (·.walk.isSome))])
  | some .xlt => some (bitsAt [(16, (s.bench d).invBusy)])
  | some .gal => some (bitsAt [(16, s.en d 0x70 && decide (65536 * s.rfld d 0x70 Off.galWays 16 3 ≤ s.specLines d)), (17, s.capNow d),
      (18, (s.bench d).flushing), (19, (s.bench d).clearing)])
  | some .cru => some (bitsAt [(16, s.en d p && wbit (s.reg d p Off.cruCfg) 0)] + min 4 (s.bench d).cru.act.length * 2 ^ 17)
  | some .spc => some (bitsAt [(16, (s.bench d).task.isSome), (17, wbit (s.reg d p Off.stat) 17), (18, wbit (s.reg d p Off.stat) 18)])
  | some .lnk =>
    let out := fun (x : Nat) => decide (x < 16) && nbit (s.fstat 16 16) x
    let far := ((partner d (p - 0x80)).map (·.1)).getD 20
    some (bitsAt [(19, out d || out far), (20, wbit (s.reg d p Off.stat) 20)] + s.rfld d p Off.stat 16 3 * 2 ^ 16)
  | some .hbm | some .stkCtl =>
    some (bitsAt [(18, s.en d p && wbit (s.reg d p Off.hbmCfg) 4 && s.rfld d p Off.stat 16 2 == 2)] + s.rfld d p Off.stat 16 2 * 2 ^ 16)
  | some .wbgBoot => some (s.boot.stage * 2 ^ 16 + s.boot.state * 2 ^ 20)
  | _ => none

/-- STAT as the block holds it (R22). -/
def State.statView (s : State) (d p : Nat) : Word :=
  let w := wputBit (s.reg d p Off.stat) 0 (s.pageRun d p)
  match s.statBlk d p with
  | some n => wput w 16 16 (n / 2 ^ 16)
  | none => w

/-- The value that the block holds for a register (R37): the registers that mirror the block's work are computed from it.
DESIGN CHOICE: log entries 57, 86. DEDUCED: log entry 97. -/
def State.view (s : State) (d p o : Nat) : Word :=
  let w := s.reg d p o
  let f := fun (u : Nat) => s.face d u
  let pstat := fun (u : Nat) =>
    w32 ((f u).cause * 2 ^ 30 + (f u).tag * 2 ^ 18 + (f u).bank.toNat * 2 ^ 17 + (s.core (mainCore d u)).pc)
  match pageKind d p with
  | none => 0
  | some k =>
    if k ≠ .msix && k ≠ .pba && o = Off.stat then s.statView d p
    else match k with
    | .fcc =>
      if o = Off.fccPstat then pstat (p - 0x10) else if o = Off.fccQocc then w32 (f (p - 0x10)).qocc else w
    | .mlt => if o = Off.mltPstat then pstat 6 else w
    | .slb =>
      if o = Off.slbGeom then
        w32 (wfld w 0 8 + 0x8000 + wfld w 16 3 * 2 ^ 16 + (128 - wfld w 0 8) / 2 * 2 ^ 19)
      else w
    | .vec =>
      let x := f (p - 0x48)
      let o8 := fun (r : Nat) (n : Nat) => if (ringOf (s.reg d p r)).2 = 0 then 0 else n % (ringOf (s.reg d p r)).2
      if o = Off.vecLfsrLo then w32 x.lfsr.toNat
      else if o = Off.vecLfsrHi then w32 (x.lfsr.toNat / 2 ^ 32)
      else if o = Off.vecTq then w32 (x.tileQ.length + x.popped * 2 ^ 4 + ((x.tileQ.head?.map (·.live)).getD 0) * 2 ^ 8)
      else if o = Off.vecOpos then
        w32 (o8 Off.vecOring (x.oPos / 8) + x.oPos % 8 * 2 ^ 8 + o8 Off.vecSring x.tilesOut * 2 ^ 16 + x.popped * 2 ^ 24)
      else w
    | .gal =>
      if o = Off.galRtocc then w32 (s.bench d).slots.length else if o = Off.galSpecl then w32 (s.specLines d) else w
    | .cru => if o = Off.cruSlots then w32 (s.slotsInUse d) else w
    | .spc =>
      if o = Off.spcHeld then w32 (s.specLines d)
      else if Off.spcShd ≤ o && decide (o < Off.spcShd + 24) then w32 (lineCount 64 (inStoreOf d ((o - Off.spcShd) / 4)) none (s.bench d).held)
      else w
    | .stk => if o = Off.stkRq then w32 (s.rqQueued d) else w
    | .lnk => if o = Off.lnkCredit then w32 (bufferCells - (s.port d (p - 0x80)).cells) else if d = 20 && p = 0x80 && o = Off.lnkBisect then w32 s.bisect else w
    | .cmdEngine =>
      if o = Off.cmdInfl then w32 s.inFlight
      else if o = Off.cmdStage then w32 (ceilDiv s.stagedBytes 65536)
      else if Off.cmdHalt ≤ o && decide (o < Off.cmdHalt + 12) then
        w32 (maskOf ((List.range 32).filter (fun i => decide (8 * (o - Off.cmdHalt) + i < 65) && s.ringHalted (8 * (o - Off.cmdHalt) + i))))
      else w
    | .ring => if o = Off.cmdRinfl then w32 (s.ring (p - 0x20)).run.length else w
    | .wbgPcie => if o = Off.wbgRdpend then w32 s.readsOut else w
    | .wbgBoot =>
      if o = Off.wbgBtries then w32 s.boot.tries else w
    | .carId =>
      if Off.carDikpub ≤ o && decide (o < Off.carDikpub + 64) then w32 (leNat ((dikPublic.drop (o - Off.carDikpub)).take 4)) else w
    | _ => w

/-! ### Requirements between pages (R31, R33) -/

/-- A valid standing slot of a Hauler names space 1 (R222). -/
def State.slotsVirtual (s : State) (b key : Nat) : Bool :=
  (List.range 8).any (fun n => s.slotValid b key n && (dSspace (s.slotWords b key n) == 1 || dDspace (s.slotWords b key n) == 1))

/-- Pages of a Bench that require its BEN_ page. -/
def needBen : List Nat :=
  (List.range 6).flatMap (fun f => [0x10 + f, 0x40 + f, 0x48 + f, 0x50 + f, 0x58 + f]) ++ (List.range 24).map (0x20 + ·)
    ++ (List.range 7).map (0x60 + ·) ++ [0x70, 0x78, 0x88, 0x90, 0x98]

/-- An enabled page requires this page (R33): the requirements that the chapters' checks name (R96, R136, R159, R160, R184, R185, R222,
R223, R236, R253, R255, R311, R330, R331, R357). -/
def State.required (s : State) (d p : Nat) : Bool :=
  match pageKind d p with
  | some .ben => needBen.any (s.en d)
  | some .siv => s.en d (p - 0x10) && wbit (s.reg d (p - 0x10) Off.vecOfmt) 7
  | some .xlt => s.en d 0x90 || (List.range 7).any (fun k => s.en d (0x60 + k) && s.slotsVirtual d k)
  | some .gal => s.en d 0x90 || s.en d 0x98
  | some .hbm => s.en d 0x78 && s.rfld d 0x78 Off.xltRoot 19 1 == p - 0x74
  | some .stkCtl => s.en d 0 && ((List.range 4).map (0x10 + ·)).all (fun q => q == p || !s.en d q)
  | some .cmdEngine => (List.range 65).any (fun n => s.en 20 (ringPage n))
  | _ => false

/-! ### The checks (R28 to R32). A refusal is a class, a word and a code -/

/-- A failing test of a check: class, WORD and code, `none` where it passes. -/
abbrev Test := Bool × Nat × Nat × Nat

/-- A required page is disabled or its check is pending. DEDUCED: log entry 93. -/
def State.needs (s : State) (l : List (Nat × Nat)) : Test := (l.any (fun x => !s.en x.1 x.2), 3, 0xFFF, 0x0005)

/-- The ring of a Face store that a ring register names, in bytes (R147). -/
def ringSpan (w : Word) (slot : Nat) : Nat × Nat := ((ringOf w).1, (ringOf w).2 * slot)

/-- The VE page's tests (R160, R162). -/
def State.checkVec (s : State) (d p : Nat) : List Test :=
  let r := fun o => s.reg d p o
  let u := p - 0x48
  let of := wfld (r Off.vecOfmt) 0 4
  let sf := wfld (r Off.vecSfmt) 0 4
  let o := ringSpan (r Off.vecOring) (256 * (Fmt.ofCode of).bits)
  let v := ringSpan (r Off.vecSring) (256 * (Fmt.ofCode sf).bits)
  let kind := fun (x : Nat) => wfld (r x) 0 2
  let sparse := wbit (r Off.vecOfmt) 7
  [(o.1 % 64 != 0, 1, 0x011, 0x0003), (o.2 != 0 && decide (0x800000 < o.1 + o.2), 1, 0x011, 0x0502),
    (wfld (r Off.vecOfmt) 4 2 == 3, 1, 0x012, 0x0107), (!([0, 1, 2, 3, 4, 5, 0xE].contains of), 1, 0x012, 0x0504),
    (kind Off.vecOsig == 3, 1, 0x013, 0x0002),
    (v.1 % 64 != 0, 1, 0x014, 0x0003), (v.2 != 0 && decide (0x800000 < v.1 + v.2), 1, 0x014, 0x0502),
    (decide (1 < sf), 1, 0x015, 0x0504), (kind Off.vecSsig == 3, 1, 0x016, 0x0002),
    (!wbit (r Off.vecCfg) 0 && (o.2 != 0 || v.2 != 0), 2, 0x010, 0x0501),
    (o.2 != 0 && v.2 != 0 && rangesMeet o.1 o.2 v.1 v.2, 2, 0x011, 0x0503),
    s.needs ((d, 0) :: if sparse then [(d, 0x58 + u)] else []),
    (sparse && wfld (s.reg d (0x58 + u) Off.sivVhdr) 24 8 == 0, 3, 0x012, 0x0623),
    (s.tokenMode d u && kind Off.vecOsig == 1, 3, 0x013, 0x0505), (s.tokenMode d u && kind Off.vecSsig == 1, 3, 0x016, 0x0505)]

/-- The Weevil page's tests (R184, R199, R200). DEDUCED: log entry 44. -/
def State.checkWev (s : State) (d p : Nat) : List Test :=
  let g := (s.reg d p Off.wevRtGeom).toNat
  let cap := s.rfld d p Off.wevRtCap 0 13
  let ne := 2 ^ fld g 0 3
  let nface := fld g 10 3
  let a := fun o => s.rfld d p o 0 23
  let seed := (a Off.wevRtSeedt, 512)
  let cnt := (a Off.wevRtCnt, 64 * ceilDiv ne 8)
  let bal := (a Off.wevRtBal, if nface = 0 then 0 else 64 * ceilDiv ne 64 + 4 * nface)
  let far := fun (x : Nat × Nat) => decide (0x800000 < x.1 + x.2)
  let meet := fun (x y : Nat × Nat) => x.2 != 0 && y.2 != 0 && rangesMeet x.1 x.2 y.1 y.2
  [(fld g 0 3 == 0 || fld g 0 3 == 7 || nface == 7, 1, 0x020, 0x0701), (cap == 0 || decide (4096 < cap), 1, 0x021, 0x0703)]
    ++ [(Off.wevRtSeedt, far seed), (Off.wevRtScore, false), (Off.wevRtMidx, false), (Off.wevRtMwgt, false), (Off.wevRtDrop, false),
        (Off.wevRtCnt, far cnt), (Off.wevRtBal, bal.2 != 0 && far bal)].map
      (fun x => (a x.1 % 64 != 0 || x.2, 1, x.1 / 4, 0x0704))
    ++ [(decide (fld g 5 3 < fld g 3 2) || decide (ne < fld g 5 3 + 1), 2, 0x020, 0x0702),
        (meet seed cnt || meet seed bal, 2, 0x022, 0x0705), (meet cnt bal, 2, 0x027, 0x0705), s.needs [(d, 0)]]

/-- The Sieve page's tests (R185). DEDUCED: log entry 40. -/
def State.checkSiv (s : State) (d p : Nat) : List Test :=
  let c := (s.reg d p Off.sivCfg).toNat
  let h := s.reg d p Off.sivVhdr
  let vnt := if fld c 0 8 = 0 then 256 else fld c 0 8
  let vtr := fld c 8 3
  [(fld c 11 2 == 3, 1, 0x010, 0x0002), ((ringOf h).1 % 64 != 0, 1, 0x011, 0x0003),
    ((ringOf h).2 != 0 && decide (0x800000 < (ringOf h).1 + 64 * (ringOf h).2), 1, 0x011, 0x0622),
    (s.rfld d p Off.sivVsig 0 2 == 3, 1, 0x012, 0x0002), (vnt % (vtr + 1) != 0, 2, 0x010, 0x0621), s.needs [(d, 0)],
    (s.tokenMode d (p - 0x58) && s.rfld d p Off.sivVsig 0 2 == 1, 3, 0x012, 0x0505),
    (!nbit c 13 && fld c 11 2 == 2 && decide (3 < vtr), 5, 0x010, 0x0620)]

/-- The class of a code that a Hauler page's check gives (R66, R224). DEDUCED: log entry 49. -/
def hlrClass (code : Nat) : Nat :=
  if code == 0x0104 then 4 else if code == 0x0811 then 3 else if code == 0x0805 || code == 0x0806 then 2 else 1

/-- The Hauler page's tests (R66, R220, R222): for every valid slot, in ascending order, those of its format and of R202 to R204 and R207
to R209, and space 1 without the XLT_ page. DEDUCED: log entry 49. -/
def State.checkHlr (s : State) (d p : Nat) : List Test :=
  let key := p - 0x60
  ((List.range 8).filter (s.slotValid d key)).flatMap (fun n =>
    ((s.descFaults d (s.slotWords d key n) ⟨if key = 6 then 7 else key, key, false, 0, false⟩).filter
      (fun x => [0x0101, 0x0104, 0x0102, 0x0801, 0x0806, 0x0802, 0x0809, 0x0804, 0x0803, 0x0805, 0x0811].contains x.2.1)).map
      (fun x => (x.1, hlrClass x.2.1, 0x040 + 0x20 * n + x.2.2, x.2.1)))
    ++ [s.needs [(d, 0)]]

/-- The ring page's tests (R358). DEDUCED: log entry 93. -/
def State.checkRing (s : State) (p : Nat) : List Test :=
  let n := p - 0x20
  let long := fun lo hi => s.rg n lo + s.rg n hi * 2 ^ 32
  let sq := (long Off.cmdSqbaseLo Off.cmdSqbaseHi, 2 ^ fld (s.rg n Off.cmdSqcfg) 0 5)
  let cq := (long Off.cmdCqbaseLo Off.cmdCqbaseHi, 2 ^ fld (s.rg n Off.cmdCqcfg) 0 5)
  let wb := (long Off.cmdWbLo Off.cmdWbHi, 16)
  let size := fun (o : Nat) => decide (fld (s.rg n o) 0 5 < 19) || decide (30 < fld (s.rg n o) 0 5)
  let meet := fun (x y : Nat × Nat) => rangesMeet x.1 x.2 y.1 y.2
  [(sq.1 % 4096 != 0, 1, 0x010, 0x0D20), (size Off.cmdSqcfg, 1, 0x012, 0x0D20), (fld (s.rg n Off.cmdSqcfg) 8 8 == 0, 1, 0x012, 0x0D22),
    (cq.1 % 4096 != 0, 1, 0x013, 0x0D20), (size Off.cmdCqcfg, 1, 0x015, 0x0D20), (wb.1 % 16 != 0, 1, 0x017, 0x0D20),
    (meet sq cq || meet sq wb, 2, 0x010, 0x0D21), (meet cq wb, 2, 0x013, 0x0D21), s.needs [(20, 0x10)],
    (n != 0 && s.ctxState n == 0, 3, 0xFFF, 0x0D23)]

/-- The Crushers' tests, in the order that R311 gives. DEDUCED: log entry 93. -/
def State.checkCru (s : State) (d p : Nat) : List Test :=
  let m := s.rfld d p Off.cruGroup 0 16
  let ms := bitList 16 m
  [s.needs [(d, 0)], (!([1, 2, 4, 8, 16].contains ms.length) || !nbit m d, 1, 0x010, 0x0B01),
    (ms.any (s.benchGone d), 6, 0xFFF, 0x0B02), (ms.any (fun t => s.benchCtx t != s.benchCtx d), 4, 0xFFF, 0x0B03),
    (s.rfld d p Off.cruCfg 1 12 == 0, 1, 0x011, 0x0B04)]

/-- A page's tests; `testRank` gives their order (R30). DEDUCED: log entry 93. -/
def State.checkTests (s : State) (d p : Nat) : List Test :=
  let r := fun o => (s.reg d p o).toNat
  match pageKind d p with
  | some .fcc => [(fld (r Off.fccBoot) 0 17 % 4 != 0, 1, 0x010, 0x0003), s.needs [(d, 0)]]
  | some .ben => [(decide (1 ≤ fld (r Off.benDepwd) 0 24) && decide (fld (r Off.benDepwd) 0 24 ≤ 15), 1, 0x030, 0x0001)]
  | some .slb =>
    let m := (r Off.slbVbyp0 ||| r Off.slbFbyp0) + (r Off.slbVbyp1 ||| r Off.slbFbyp1) * 2 ^ 32
    [(wbit (s.reg d p Off.stat) 21, 6, 0xFFF, 0x040A), s.needs [(d, 0)], (decide (4 < popCount 64 m), 5, 0x010, 0x0409)]
  | some .chu => [(decide (2 ≤ fld (r Off.chuCfg) 0 2), 1, 0x010, 0x0002), s.needs [(d, 0)]]
  | some .vec => s.checkVec d p
  | some .wev => s.checkWev d p
  | some .siv => s.checkSiv d p
  | some .hlr => s.checkHlr d p
  | some .xlt =>
    let x := r Off.xltRoot
    let n := fld (r Off.xltLim) 0 15
    [(decide (2 ^ 36 < fld x 0 19 * 2 ^ 17 + 8 * n), 1, 0x010, 0x0001), (n == 0 || decide (16384 < n), 1, 0x011, 0x0001),
      s.needs [(d, 0), (d, 0x74 + fld x 19 1)]]
  | some .gal =>
    let w := r Off.galWays
    let t := r Off.galRtmin
    let cap := fld (r Off.galBankcap) 0 11
    [(decide (16 < fld w 0 5 + fld w 8 5 + fld w 16 3) || decide (4 < fld w 16 3), 1, 0x010, 0x0910),
      (decide (fld w 8 5 < fld (r Off.galPf) 0 5), 1, 0x011, 0x0910), (cap == 0 || decide (1024 < cap), 1, 0x013, 0x0912),
      s.needs [(d, 0)], (decide (16384 < 6 * fld t 0 12 + fld t 16 12), 5, 0x012, 0x0911)]
  | some .hbm | some .stkCtl =>
    [(s.rfld d p Off.stat 16 2 != 2, 6, 0xFFF, if d < 16 then 0x0920 else 0x0930), (fld (r Off.hbmCfg) 1 2 == 3, 1, 0x010, 0x0002),
      (fld (r Off.hbmTout) 0 12 == 0, 1, 0x011, 0x0001)]
  | some .stk => [(((List.range 4).map (0x10 + ·)).all (fun q => !s.en d q), 3, 0xFFF, 0x0005)]
  | some .lnk =>
    let l := s.lstate d (p - 0x80)
    [(l == 5 || l == 6, 6, 0xFFF, 0x0A02), (l != 2, 6, 0xFFF, 0x0A03),
      (fld (r Off.lnkCfg) 0 6 == 0 || fld (r Off.lnkCfg) 8 8 == 0, 1, 0x010, 0x0A01)]
  | some .cru => s.checkCru d p
  | some .mlt =>
    let l := fld (r Off.mltLtab) 0 21
    let n := fld (r Off.mltLnum) 0 13
    [(fld (r Off.mltBoot) 0 17 % 4 != 0, 1, 0x010, 0x0003), (l % 64 != 0, 1, 0x012, 0x0003),
      (decide (0x200000 < l + 64 * n), 1, 0x012, 0x0C20), (n == 0 || decide (4096 < n), 1, 0x013, 0x0001),
      s.needs [(d, 0), (d, 0x70), (d, 0x78)]]
  | some .spc => [s.needs [(d, 0), (d, 0x70)]]
  | some .cmdEngine => [(fld (r Off.cmdCfg) 0 10 == 0 || decide (512 < fld (r Off.cmdCfg) 0 10), 1, 0x010, 0x0001)]
  | some .ring => s.checkRing p
  | _ => []

/-- The place of a test in the order of R30: its class in the order 6, 1, 2, 3, 4, 5, then its register; a test of panel state
comes first in its class. DEDUCED: log entry 93. -/
def testRank (t : Test) : Nat := [6, 1, 2, 3, 4, 5].idxOf t.2.1 * 0x1000 + (t.2.2.1 + 1) % 0x1000

/-- The first test that fails, in the order of R30; of two on one register, the one listed first. DEDUCED: log entry 93. -/
def firstFailing : List Test → Option Test
  | [] => none
  | t :: ts => match firstFailing ts with
    | some u => if t.1 && decide (testRank t ≤ testRank u) then some t else some u
    | none => if t.1 then some t else none

/-- What the first cycle of a page's check finds (R30, R31): class, WORD and code, or 0, 0, 0 where every test passes.
DEDUCED: log entry 93. -/
def State.checkVerdict (s : State) (d p : Nat) : Nat × Nat × Nat := ((firstFailing (s.checkTests d p)).map (·.2)).getD (0, 0, 0)

/-- What an accepted enable does in the block (R95, R133, R160, R236, R294, R353). -/
def State.acceptEnable (s : State) (d p : Nat) : State :=
  match pageKind d p with
  | some .fcc => s.bootCore d (p - 0x10)
  | some .mlt => s.bootCore d 6
  | some .slb =>
    let m := ((s.reg d p Off.slbVbyp0 ||| s.reg d p Off.slbFbyp0).toNat) + ((s.reg d p Off.slbVbyp1 ||| s.reg d p Off.slbFbyp1).toNat) * 2 ^ 32
    s.setFld d p Off.slbGeom 0 8 (128 - 2 * popCount 64 m)
  | some .vec => s.updFace d (p - 0x48) (fun f => { f with oPos := 0, sPos := 0, oFull := 0, sFull := 0, tilesOut := 0 })
  | some .siv => s.updFace d (p - 0x58) (fun f => { f with slotsV := 0 })
  | some .gal => s.assignWays d
  | some .cru => (s.setReg d p Off.cruSeq 0).updBench d (fun x => { x with cru := { x.cru with early := [] } })
  | some .ring =>
    let n := p - 0x20
    let s := s.updRing n (fun _ => Ring.empty)
    [Off.cmdSqtail, Off.cmdSqhead, Off.cmdCqtail, Off.cmdCqhead].foldl (fun s o => s.setReg 20 p o 0) s
  | _ => s

end Sys2Proof.Machine
end

