-- ==== Sys2Proof/WellFormed.lean ====
section
/-!
DEFINITION. Which commands name an event of the panel: the checks on list operands whose length a row fixes. Every other
operand is a type that holds no value the panel does not have.
-/

namespace Sys2Proof

/-- A SHUPD carries 1 to 16 register values (R337). -/
def shupdFits (vals : List Word) : Bool := decide (1 ≤ vals.length) && decide (vals.length ≤ 16)

/-- The boundary-scan register has 416 cells (R444). -/
def scanFits (pins : List Bool) : Bool := decide (pins.length = 416)

/-- The command's list operands have the lengths its row fixes. DEDUCED: log entry 105. -/
def Instr.wellFormed : Instr → Bool
  | .shupd _ _ vals => shupdFits vals
  | .samplePreload pins _ => scanFits pins
  | _ => true

end Sys2Proof
end

