-- ==== Sys2Proof/Machine/Pages.lean ====
section
/-!
DEFINITION. Register writes and reads as the Weighbridge serves them (R25 to R40, R337 to R340): judging and dropping, held writes,
forwarding, the effects of a CTL write and of the other registers that act when they are written, the consistency check, quiesce,
shadows, the write drain, and MSI-X masks. A write to a register that acts when it is written takes effect with its acceptance,
after every earlier write to its page.
-/

namespace Sys2Proof.Machine

/-! ### Judging a write (R27) -/

/-- The shadow of a register (R37). -/
def State.sh (s : State) (d p o : Nat) : Word := smGet regReset s.shadow (regKey d p o)

/-- The shadow of a register set. -/
def State.setSh (s : State) (d p o : Nat) (v : Word) : State := { s with shadow := smSet regReset s.shadow (regKey d p o) v }

/-- No register lies at the address, and no page that the page map lists (R18): the MSI-X pages end with their tables.
DEDUCED: log entry 95. -/
def unmapped (off : Nat) : Bool :=
  let d := keyDie off
  let p := keyPage off
  decide (22 < d) || (pageKind d p).isNone || (!hasHeader d p && (regOf d p (keyOff off / 4 * 4)).isNone)

/-- The page's power domain is off (R27, R287, R411). Page 0xF0 lies in the Safety domain. DEDUCED: log entry 92. -/
def State.pageOff (s : State) (d p : Nat) : Bool :=
  if p = 0xF0 || d = 20 || 22 ≤ d then false
  else if d < 16 then
    s.isRetired d || !s.uncoreOn d || (pageKind d p == some .slb && !wbit (s.reg d 0xF0 Off.cpvDom) 0)
  else if d = 21 then !s.domOn 46
  else !s.uncoreOn d

/-- The agents that may write a page of an owner (R25). -/
def mayWrite (owner : Nat) : Agent → Bool
  | .host => owner == 0
  | .fw => owner == 0 || owner == 1
  | .carapace => owner == 2
  | .safety => owner == 3

/-- A page that the host may write before READY (R392). -/
def beforeReady (d p : Nat) : Bool := d == 20 && [0x01, 0x02, 0xC0, 0xC1].contains p

/-- The code with which a write is dropped, the first of R27 that applies; `none` where it is accepted.
DEDUCED: log entry 95. -/
def State.dropCode (s : State) (a : Agent) (off : Nat) (whole : Bool) : Option Nat :=
  let d := keyDie off
  let p := keyPage off
  let o := keyOff off
  if unmapped off then some 0x0012
  else if !whole || off % 4 ≠ 0 then some 0x0011
  else if s.pageOff d p then some 0x000A
  else if !mayWrite (if hasHeader d p then wfld (s.sh d p Off.owner) 0 2 else 0) a then some 0x0010
  else if a = .host && !wbit (s.reg 20 8 Off.wbgBstat) 0 && !beforeReady d p then some 0x0F30
  else if hasHeader d p && wbit (s.sh d p Off.ctl) 3 && o ≠ Off.irqStat then some 0x000D
  else none

/-! ### Writes on their way -/

/-- A write belongs to a page. -/
def PageStore.isFor (w : PageStore) (d p : Nat) : Bool := keyDie w.key == d && keyPage w.key == p

/-- A register lies in the configuration window (R24). -/
def inWindow (d p o : Nat) : Bool := hasHeader d p && decide (0x40 ≤ o) && decide (o < 0x800)

/-- A check of the page is pending in the shadow. -/
def State.checking (s : State) (d p : Nat) : Bool := hasHeader d p && wbit (s.sh d p Off.stat) 4

/-- A forwarded write applied by its block (R8, R39): RW bits take the value, W1C bits clear. -/
def State.applyWrite (s : State) (w : PageStore) : State :=
  let d := keyDie w.key
  let p := keyPage w.key
  let o := keyOff w.key
  match regOf d p o with
  | none => s
  | some r => (s.setReg d p o (r.afterWrite (s.reg d p o) w.data)).noteIrq d p

/-- Every forwarded write of a page applied, in order (R39). DEDUCED: log entry 10. -/
def State.flushPage (s : State) (d p : Nat) : State :=
  let s := (s.path.forwarded.filter (fun w => w.isFor d p && !w.applied)).foldl (fun s w => s.applyWrite w) s
  { s with path := { s.path with forwarded := s.path.forwarded.map (fun w => if w.isFor d p then { w with applied := true } else w) } }

/-- An accepted write goes to its page's die as REGWR (R337); one for which no route stands is lost. DEDUCED: log entry 10. -/
def State.carry (s : State) (w : PageStore) : State :=
  if s.routed 20 (keyDie w.key) then ({ s with path := { s.path with forwarded := s.path.forwarded ++ [w] } }).send (s.regwrPacket w)
  else s

/-- An accepted write without an effect of its own: the shadow's RW bits take the value at once (R37), and the write is forwarded
(R337). DEDUCED: log entry 10. -/
def State.forward (s : State) (a : Agent) (key : Nat) (data : Word) (tag : Nat) : State :=
  let d := keyDie key
  let p := keyPage key
  let o := keyOff key
  match regOf d p o with
  | none => s
  | some r =>
    (s.setSh d p o ((s.sh d p o &&& ~~~ (w32 r.rw)) ||| (data &&& w32 r.rw))).carry ⟨a, key, data, tag, false⟩

/-- A refusal shown at once in the shadow, for one that the Weighbridge itself finds (R34). DEDUCED: log entry 94. -/
def State.showRefusal (s : State) (d p : Nat) : State :=
  (s.setSh d p Off.refuse (s.reg d p Off.refuse)).setSh d p Off.stat (wputBit (s.sh d p Off.stat) 1 (wbit (s.reg d p Off.stat) 1))

/-- The shadow of CTL after a CTL write: the block's bits but EN, which the check's result brings (R37).
DEDUCED: log entry 94. -/
def State.showCtl (s : State) (d p : Nat) : State :=
  s.setSh d p Off.ctl (wputBit (s.reg d p Off.ctl) 0 (wbit (s.sh d p Off.ctl) 0))

/-- Every shadow of a page takes the block's value. -/
def State.showPage (s : State) (d p : Nat) : State :=
  let s := { s with shadow := smClear s.shadow (fun k => keyDie k == d && keyPage k == p) }
  let s := (s.regs.filter (fun e => keyDie e.1 == d && keyPage e.1 == p)).foldl (fun s e => s.setSh d p (keyOff e.1) e.2) s
  s.setSh d p Off.stat (s.view d p Off.stat)

/-! ### CTL (R33) -/

/-- A write of FCC_CTL.DEPMODE (R94, R108). DEDUCED: log entry 27. -/
def State.depmode (s : State) (d p : Nat) (v : Bool) : State :=
  let u := p - 0x10
  let f := s.face d u
  if wbit (s.reg d p Off.ctl) 16 = v then s
  else if !f.parked then s.refuse d p 6 0xFFF 0x0304
  else if !f.queuesEmpty || !s.unitsIdle d u then s.refuse d p 6 0xFFF 0x0305
  else ((s.setFld d p Off.ctl 16 1 v.toNat).updFace d u (fun f => { f with flags := 0, ctr := [], tok := [] })).updCore (mainCore d u)
    (fun c => { c with popped := false })

/-- The block-specific bits of a CTL write: DISCARD and DEPMODE of a Face, ABORT of a ring. -/
def State.ctlBlk (s : State) (d p : Nat) (v : Word) : State :=
  match pageKind d p with
  | some .fcc => (s.setFld d p Off.ctl 17 1 (wfld v 17 1)).depmode d p (wbit v 16)
  | some .ring => s.setFld d p Off.ctl 16 1 (wfld v 16 1)
  | _ => s

/-- A change of CTL.QSC (R33, R91, R92, R353). DEDUCED: log entry 94. -/
def State.ctlQsc (s : State) (d p : Nat) (v : Bool) : State :=
  if s.qsc d p = v then s
  else if !v then (s.setFld d p Off.ctl 2 1 0).setFld d p Off.stat 3 1 0
  else
    let s := s.setFld d p Off.ctl 2 1 1
    match pageKind d p with
    | some .fcc => s.quiesceUnit d (p - 0x10) (wbit (s.reg d p Off.ctl) 17)
    | some .mlt => s.quiesceUnit d 6 false
    | some .ring => if wbit (s.reg d p Off.ctl) 16 then s.abortRing (p - 0x20) else s
    | _ => s

/-- The clear of CTL.EN is allowed by the block's work (R33, R236). -/
def State.mayDisable (s : State) (d p : Nat) : Bool :=
  wbit (s.reg d p Off.stat) 3 || (pageKind d p != some .gal && !s.pageRun d p)

/-- A clear of CTL.EN (R33): refused with 0x000C or 0x000E, or accepted. -/
def State.disable (s : State) (d p : Nat) : State :=
  if !s.mayDisable d p then s.refuse d p 6 0xFFF 0x000C
  else if s.required d p then s.refuse d p 3 0xFFF 0x000E
  else
    let s := ((s.setFld d p Off.ctl 0 1 0).setFld d p Off.stat 1 1 0).setReg d p Off.refuse 0
    let s := if pageKind d p = some .gal then s.writeBackAll d else s
    (s.stopBlock d p).noteIrq d p

/-- A change of CTL.EN (R28, R33): a set starts the check, which reads the other pages at once (R31). DEDUCED: log entry 94. -/
def State.ctlEn (s : State) (d p : Nat) (v : Bool) : State :=
  if s.en d p = v then s
  else if v then
    let s := { s with verdicts := smSet (fun _ => (0, 0, 0)) s.verdicts (regKey d p 0) (s.checkVerdict d p) }
    let s := (s.setFld d p Off.stat 4 1 1).setFld d p Off.stat 1 1 0
    s.setSh d p Off.stat (wputBit (s.sh d p Off.stat) 4 true)
  else s.disable d p

/-- A write of CTL (R33). -/
def State.writeCtl (s : State) (d p : Nat) (v : Word) : State :=
  if wbit v 1 then (s.softReset d p).showPage d p
  else
    let s := ((s.ctlBlk d p v).ctlQsc d p (wbit v 2)).ctlEn d p (wbit v 0)
    let s := if wbit v 3 then s.setFld d p Off.ctl 3 1 1 else s
    s.showCtl d p

/-! ### Registers that act when they are written -/

/-- FCC_RESUME or MLT_RESUME (R93). DEDUCED: log entry 26. -/
def State.resumeWrite (s : State) (d p u : Nat) (v : Word) : State :=
  if !wbit v 0 then s
  else match s.resumeUnit d u (wbit v 2) (if wbit v 1 then some (s.rfld d p Off.fccRpc 0 17) else none) with
    | some t => t
    | none => s.refuse d p 6 0xFFF 0x0209

/-- FCC_EXC_CLR or MLT_EXC_CLR (R96). -/
def State.excClear (s : State) (d p : Nat) (v : Word) : State :=
  if wbit v 0 then (s.setReg d p Off.fccExc 0).setFld d p Off.stat 2 1 0 else s

/-- SLB_TEST (R131, R132, R135). -/
def State.selfTest (s : State) (d p : Nat) (v : Word) : State :=
  if !wbit v 0 then s
  else if s.en d p || wbit (s.reg d p Off.stat) 21 then s.refuse d p 6 0xFFF 0x040A
  else ((s.setFld d p Off.stat 21 1 1).zeroSlab d (p - 0x20)).untrack d (p - 0x20)

/-- VEC_SEED_LD (R55, R157): a seed of 0 is loaded as 1. -/
def State.loadSeed (s : State) (d p : Nat) (v : Word) : State :=
  let seed := s.reg d p Off.vecSeedHi ++ s.reg d p Off.vecSeedLo
  if wbit v 0 then s.updFace d (p - 0x48) (fun f => { f with lfsr := if seed = 0 then 1 else seed }) else s

/-- A pending vector whose mask has lifted is sent (R340). -/
def State.sendPending (s : State) (v : Nat) : State :=
  if wbit (s.reg 20 0xC1 (4 * (v / 32))) (v % 32) && !s.vectorMasked v then
    (s.setFld 20 0xC1 (4 * (v / 32)) (v % 32) 1 0).sendVector v
  else s

/-- A write of the MSI-X table (R21, R340). PRESUMED: log entry 16. -/
def State.msixWrite (s : State) (o : Nat) (v : Word) : State :=
  let v := if o % 16 = 12 then v &&& 1 else v
  ((s.setReg 20 0xC0 o v).setSh 20 0xC0 o v).sendPending (o / 16)

/-- WBG_IRQREARM (R340). -/
def State.rearm (s : State) (v : Word) : State :=
  (List.range 23).foldl (fun s d => if wbit v d && wbit (s.reg 20 0 Off.wbgIrqsum) d then s.sendVector (65 + d) else s) s

/-- WBG_DRAIN (R39). -/
def State.startDrainOf (s : State) (v : Word) (tag : Nat) : State :=
  if wbit v 0 then { s with path := { s.path with drain := some tag } }.setFld 20 2 Off.wbgDrstat 0 1 1 else s

/-- The register acts when it is written: its effect, applied after every earlier write to its page. DEDUCED: log entry 10. -/
def State.effect (s : State) (a : Agent) (d p o : Nat) (v : Word) (tag : Nat) : Option State :=
  if hasHeader d p && o = Off.ctl then some (s.writeCtl d p v)
  else if hasHeader d p && o = Off.irqSet then some (s.raise d p v.toNat)
  else match pageKind d p with
  | some .fcc =>
    if o = Off.fccResume then some (s.resumeWrite d p (p - 0x10) v) else if o = Off.fccExcClr then some (s.excClear d p v) else none
  | some .mlt => if o = Off.mltResume then some (s.resumeWrite d p 6 v) else if o = Off.mltExcClr then some (s.excClear d p v) else none
  | some .slb => if o = Off.slbTest then some (s.selfTest d p v) else none
  | some .vec => if o = Off.vecSeedLd then some (s.loadSeed d p v) else none
  | some .hlr => if o = Off.hlrKick then some (s.kick d (p - 0x60) (wfld v 0 3)) else none
  | some .xlt =>
    if o = Off.xltInv then some (if wbit v 0 then s.xltInvalidate d else s) else none
  | some .gal =>
    if o = Off.galFlush then some (s.galFlush d (wfld v 0 2))
    else if o = Off.galEpoch then some (if wbit v 0 then s.epochFence d else s)
    else none
  | some .hbm => if o = Off.hbmTrain then some (if wbit v 0 then s.trainHbm d p else s) else none
  | some .stkCtl => if o = Off.stkTrain then some (if wbit v 0 then s.trainStk d p else s) else none
  | some .lnk =>
    if o = Off.lnkTrain then some (if wbit v 0 then s.trainLink d p else s)
    else if d = 20 && p = 0x80 && o = Off.lnkFence then some (s.fenceRequest v)
    else none
  | some .wbgGlobal => if o = Off.wbgIrqrearm then some (s.rearm v) else none
  | some .wbgDrain => if o = Off.wbgDrain then some (s.startDrainOf v tag) else none
  | some .cmb => if o = Off.wbgCmbGo then some (if wbit v 0 then s.cmbGo a else s) else none
  | some .smb => if o = Off.wbgSmbGo then some (if wbit v 0 then s.smbGo a else s) else none
  | some .msix => some (s.msixWrite o v)
  | _ => none

/-! ### The write path -/

/-- A write that no rule of R27 drops and no check holds: refused at a register of the window of an enabled page (R34), without
effect where no register is defined (R7), or applied. DEDUCED: log entries 10, 95. -/
def State.acceptWrite (s : State) (a : Agent) (key : Nat) (data : Word) (tag : Nat) : State :=
  let d := keyDie key
  let p := keyPage key
  let o := keyOff key
  if inWindow d p o && wbit (s.sh d p Off.ctl) 0 then if (regOf d p o).isNone then s else (s.refuse d p 6 (o / 4) 0x000B).showRefusal d p
  else
    match (s.flushPage d p).effect a d p o data tag with
    | some t => t.carry ⟨a, key, data, tag, true⟩
    | none => s.forward a key data tag

/-- A write waits behind a pending check of its page: it names CTL or the window, or an earlier write waits (R33, R34). -/
def State.holdsWrite (s : State) (d p o : Nat) : Bool :=
  s.path.held.any (·.isFor d p) || (s.checking d p && (o == Off.ctl || inWindow d p o))

/-- A register write reaches the Weighbridge decoder (R27 to R39). -/
def State.busWrite (s : State) (a : Agent) (off : Nat) (data : Word) (whole : Bool) : State :=
  let tag := s.path.nextTag
  match s.dropCode a off whole with
  | some code => s.logDrop a 0 off code
  | none =>
    let s := { s with path := { s.path with nextTag := tag + 1 } }
    if s.holdsWrite (keyDie off) (keyPage off) (keyOff off) then
      { s with path := { s.path with held := s.path.held ++ [⟨a, off, data, tag, false⟩] } }
    else s.acceptWrite a off data tag

/-- A write by a row of its own: it acts where the page and the data are those of the row. DEDUCED: log entry 10. -/
def State.rowWrite (s : State) (w : PageWrite) (o : Nat) (mine : State → Nat → Nat → Bool) : Host.Outcome State Fault Refusal :=
  let d := w.page.die.val
  let p := w.page.page.val
  .next (if mine s d p then s.busWrite w.agent (regKey d p o) w.data true else s)

/-- A page of one kind. -/
def isKind (k : PageKind) (d p : Nat) : Bool := pageKind d p == some k

/-- CTL_SRST (R33). -/
def execCtlSrst (w : PageWrite) (s : State) : Host.Outcome State Fault Refusal :=
  s.rowWrite w Off.ctl (fun _ d p => hasHeader d p && wbit w.data 1)

/-- CTL_QUIESCE_REQUEST (R33). -/
def execCtlQuiesceRequest (w : PageWrite) (s : State) : Host.Outcome State Fault Refusal :=
  s.rowWrite w Off.ctl (fun s d p => hasHeader d p && !wbit w.data 1 && wbit w.data 2 && !s.qsc d p)

/-- CTL_QUIESCE_CLEAR (R33). -/
def execCtlQuiesceClear (w : PageWrite) (s : State) : Host.Outcome State Fault Refusal :=
  s.rowWrite w Off.ctl (fun s d p => hasHeader d p && !wbit w.data 1 && !wbit w.data 2 && s.qsc d p)

/-- CTL_ENABLE (R28, R33). -/
def execCtlEnable (w : PageWrite) (s : State) : Host.Outcome State Fault Refusal :=
  s.rowWrite w Off.ctl (fun s d p => hasHeader d p && !wbit w.data 1 && wbit w.data 0 && !s.en d p)

/-- CTL_DISABLE (R33). -/
def execCtlDisable (w : PageWrite) (s : State) : Host.Outcome State Fault Refusal :=
  s.rowWrite w Off.ctl (fun s d p => hasHeader d p && !wbit w.data 1 && !wbit w.data 0 && s.en d p)

/-- CTL_LOCK (R33). -/
def execCtlLock (w : PageWrite) (s : State) : Host.Outcome State Fault Refusal :=
  s.rowWrite w Off.ctl (fun _ d p => hasHeader d p && !wbit w.data 1 && wbit w.data 3)

/-- DEPMODE_WRITE (R94, R108): a CTL write of a Face that changes DEPMODE. DEDUCED: log entry 27. -/
def execDepmodeWrite (w : PageWrite) (s : State) : Host.Outcome State Fault Refusal :=
  s.rowWrite w Off.ctl (fun s d p => isKind .fcc d p && !wbit w.data 1 && wbit w.data 16 != wbit (s.reg d p Off.ctl) 16)

/-- IRQ_SET (R22, R40). -/
def execIrqSet (w : PageWrite) (s : State) : Host.Outcome State Fault Refusal := s.rowWrite w Off.irqSet (fun _ d p => hasHeader d p)

/-- FCC_RESUME (R93), and MLT_RESUME (R330). -/
def execFccResume (w : PageWrite) (s : State) : Host.Outcome State Fault Refusal :=
  s.rowWrite w Off.fccResume (fun _ d p => isKind .fcc d p || isKind .mlt d p)

/-- FCC_EXC_CLR (R96), and MLT_EXC_CLR (R330). -/
def execFccExcClr (w : PageWrite) (s : State) : Host.Outcome State Fault Refusal :=
  s.rowWrite w Off.fccExcClr (fun _ d p => isKind .fcc d p || isKind .mlt d p)

/-- SLB_TEST (R135). -/
def execSlbTest (w : PageWrite) (s : State) : Host.Outcome State Fault Refusal := s.rowWrite w Off.slbTest (fun _ d p => isKind .slb d p)

/-- VEC_SEED_LD (R157). -/
def execVecSeedLd (w : PageWrite) (s : State) : Host.Outcome State Fault Refusal := s.rowWrite w Off.vecSeedLd (fun _ d p => isKind .vec d p)

/-- HLR_KICK (R220). -/
def execHlrKick (w : PageWrite) (s : State) : Host.Outcome State Fault Refusal := s.rowWrite w Off.hlrKick (fun _ d p => isKind .hlr d p)

/-- XLT_INV (R219, R223). -/
def execXltInv (w : PageWrite) (s : State) : Host.Outcome State Fault Refusal := s.rowWrite w Off.xltInv (fun _ d p => isKind .xlt d p)

/-- GAL_FLUSH with OP 1 (R237). -/
def execGalFlushWriteback (w : PageWrite) (s : State) : Host.Outcome State Fault Refusal :=
  s.rowWrite w Off.galFlush (fun _ d p => isKind .gal d p && wfld w.data 0 2 == 1)

/-- GAL_FLUSH with OP 2 (R237). -/
def execGalFlushInvalidate (w : PageWrite) (s : State) : Host.Outcome State Fault Refusal :=
  s.rowWrite w Off.galFlush (fun _ d p => isKind .gal d p && wfld w.data 0 2 == 2)

/-- GAL_EPOCH.FENCE (R242). -/
def execGalEpochFence (w : PageWrite) (s : State) : Host.Outcome State Fault Refusal := s.rowWrite w Off.galEpoch (fun _ d p => isKind .gal d p)

/-- HBM_TRAIN (R249). -/
def execHbmTrain (w : PageWrite) (s : State) : Host.Outcome State Fault Refusal := s.rowWrite w Off.hbmTrain (fun _ d p => isKind .hbm d p)

/-- STK_TRAIN (R252, R256). -/
def execStkTrain (w : PageWrite) (s : State) : Host.Outcome State Fault Refusal := s.rowWrite w Off.stkTrain (fun _ d p => isKind .stkCtl d p)

/-- LNK_TRAIN (R260, R288). -/
def execLnkTrain (w : PageWrite) (s : State) : Host.Outcome State Fault Refusal := s.rowWrite w Off.lnkTrain (fun _ d p => isKind .lnk d p)

/-- LNK_FENCE with READMIT = 0 (R281). -/
def execLnkFence (a : Agent) (data : Word) (s : State) : Host.Outcome State Fault Refusal :=
  .next (if wbit data 9 then s else s.busWrite a (regKey 20 0x80 Off.lnkFence) data true)

/-- LNK_FENCE with READMIT = 1 (R281, R284). -/
def execLnkReadmit (a : Agent) (data : Word) (s : State) : Host.Outcome State Fault Refusal :=
  .next (if wbit data 9 then s.busWrite a (regKey 20 0x80 Off.lnkFence) data true else s)

/-- WBG_DRAIN (R39, R356). -/
def execWbgDrain (a : Agent) (data : Word) (s : State) : Host.Outcome State Fault Refusal :=
  .next (s.busWrite a (regKey 20 2 Off.wbgDrain) data true)

/-- WBG_IRQREARM (R340, R354). -/
def execWbgIrqrearm (a : Agent) (data : Word) (s : State) : Host.Outcome State Fault Refusal :=
  .next (s.busWrite a (regKey 20 0 Off.wbgIrqrearm) data true)

/-- WRITE_DRAIN_DONE (R39): every write decoded before the drain write has been applied or dropped. -/
def execWriteDrainDone (s : State) : Host.Outcome State Fault Refusal :=
  .next (match s.path.drain with
    | none => s
    | some n =>
      let old := fun (t : Nat) => decide (t < n)
      if s.path.acks.any old || s.path.forwarded.any (fun w => old w.tag) || s.path.held.any (fun w => old w.tag) then s
      else { s with path := { s.path with drain := none } }.setFld 20 2 Off.wbgDrstat 0 1 0)

/-- MSIX_VECTOR_UNMASK (R340): a vector's mask bit, or the function's masks, lift, and the messages that waited go out.
PRESUMED: log entry 16. -/
def execMsixVectorUnmask (m : MaskLift) (s : State) : Host.Outcome State Fault Refusal :=
  .next (match m with
    | .vector v => s.msixWrite (16 * v.val + 12) 0
    | .function => (List.range 128).foldl (fun s v => s.sendPending v) { s with msixOn := true, msixFnMask := false })

/-- REGWR (R337): the oldest write packet of a page reaches its block, which applies the write, if it has not acted already, and
acknowledges it; a die that has lost its power meanwhile takes none. DEDUCED: log entry 10. -/
def execRegwr (p : PageId) (s : State) : Host.Outcome State Fault Refusal :=
  let d := p.die.val
  let q := p.page.val
  .next (match s.takeWhere (fun x => x.ptype == 0x40 && x.ddie.toNat == d && packetPage x == q) with
    | none => s
    | some (x, s) =>
      match s.path.forwarded.find? (·.isIn x) with
      | none => s
      | some w =>
        let t := { s with path := { s.path with forwarded := s.path.forwarded.erase w } }
        if t.pageOff d q then t
        else
          let t := if w.applied then t else t.applyWrite w
          ({ t with path := { t.path with acks := t.path.acks ++ [w.tag] } }).send (t.regackPacket d w.tag))

/-- REGACK (R337): the acknowledgement with the write's TAG reaches the Weighbridge. DEDUCED: log entry 10. -/
def execRegack (tag : Nat) (s : State) : Host.Outcome State Fault Refusal :=
  .next (match s.takeWhere (isRegack tag) with
    | none => s
    | some (_, s) => { s with path := { s.path with acks := s.path.acks.filter (· != tag) } })

/-- HELD_WRITE_APPLY (R33, R34): once no check is pending, the oldest held write of a page is judged as if decoded now. -/
def execHeldWriteApply (p : PageId) (s : State) : Host.Outcome State Fault Refusal :=
  let d := p.die.val
  let q := p.page.val
  .next (if s.checking d q then s
    else match s.path.held.find? (·.isFor d q) with
      | none => s
      | some w =>
        let s := { s with path := { s.path with held := s.path.held.erase w } }
        match s.dropCode w.agent w.key true with
        | some code => s.logDrop w.agent 0 w.key code
        | none => s.acceptWrite w.agent w.key w.data w.tag)

/-! ### The check's result and quiesce (R28 to R33) -/

/-- The end of a page's check (R28, R30, R31): what its first cycle found refuses the enable, or it is accepted. The shadow takes
CTL.EN, STAT, REFUSE and GEN in one update. -/
def State.checkResult (s : State) (d q : Nat) : State :=
  let s := s.flushPage d q
  let t := s.setFld d q Off.stat 4 1 0
  let v := smGet (fun _ => (0, 0, 0)) s.verdicts (regKey d q 0)
  let t := { t with verdicts := smSet (fun _ => (0, 0, 0)) s.verdicts (regKey d q 0) (0, 0, 0) }
  let t :=
    if v.1 ≠ 0 then t.refuse d q v.1 v.2.1 v.2.2
    else
      let t := ((t.setFld d q Off.ctl 0 1 1).setReg d q Off.gen (s.reg d q Off.gen + 1)).setReg d q Off.refuse 0
      (t.acceptEnable d q).noteIrq d q
  let t := (t.setSh d q Off.ctl (wputBit (t.sh d q Off.ctl) 0 (t.en d q))).setSh d q Off.stat (t.view d q Off.stat)
  (t.setSh d q Off.refuse (t.reg d q Off.refuse)).setSh d q Off.gen (t.reg d q Off.gen)

/-- CONSISTENCY_CHECK_RESULT (R28). -/
def execConsistencyCheckResult (p : PageId) (s : State) : Host.Outcome State Fault Refusal :=
  let d := p.die.val
  let q := p.page.val
  .next (if !hasHeader d q || !wbit (s.reg d q Off.stat) 4 then s else s.checkResult d q)

/-- QUIESCED (R33): nothing is in flight any more, STAT.QSD rises; the Gallery has written back its dirty lines first (R236), and a
Bench that is being fenced goes on (R282). -/
def execQuiesced (p : PageId) (s : State) : Host.Outcome State Fault Refusal :=
  let d := p.die.val
  let q := p.page.val
  .next (if !hasHeader d q || !s.qsc d q || wbit (s.reg d q Off.stat) 3 || s.pageRun d q then s
    else
      let s := if pageKind d q = some .gal then s.writeBackAll d else s
      let s := (s.setFld d q Off.stat 3 1 1).raise d q 4
      if d < 16 then s.fenceStep d else s)

/-! ### Shadows and reads (R37, R38, R337) -/

/-- A block's value reaches the shadow: every bit but the RW ones, CTL.EN with them; STAT.CHK stays the Weighbridge's (R37). -/
def State.updateShadow (s : State) (d p o : Nat) (v : Word) : State :=
  match regOf d p o with
  | none => s
  | some r =>
    let rw := if hasHeader d p && o = Off.ctl then w32 (r.rw - 1) else w32 r.rw
    let n := (s.sh d p o &&& rw) ||| (v &&& ~~~ rw)
    s.setSh d p o (if hasHeader d p && o = Off.stat then wputBit n 4 (wbit (s.sh d p o) 4) else n)

/-- Consecutive registers' values reach the shadow. -/
def State.updateShadows (s : State) (d p o : Nat) : List Word → State
  | [] => s
  | v :: vs => (s.updateShadow d p o v).updateShadows d p (o + 4) vs

/-- The SHUPD packet of consecutive registers (R337). -/
def State.shupdPacket (s : State) (d p o : Nat) (vs : List Word) : Packet :=
  s.packet d 20 0x42 0 0 0 0 (p * 0x1000 + o + 4 * vs.length % 64 * 2 ^ 57) (flits (vs.flatMap (fun v => leBytes 4 v.toNat)))

/-- A packet carries the values of a SHUPD, by whichever route it came. -/
def State.isShupd (s : State) (d p o : Nat) (vs : List Word) (x : Packet) : Bool :=
  let y := s.shupdPacket d p o vs
  x.ptype == y.ptype && x.sdie == y.sdie && x.word1 == y.word1 && x.data == y.data

/-- The current values of consecutive registers. DEDUCED: log entry 87. -/
def State.views (s : State) (d p o n : Nat) : List Word := (List.range n).map (fun i => s.view d p (o + 4 * i))

/-- The SHUPD packet of a register whose value differs from its shadow leaves its block, unless one with that value is on its way
(R337). DEDUCED: log entry 87. -/
def State.sendChange (s : State) (k : Nat) : State :=
  let d := keyDie k
  let p := keyPage k
  let o := keyOff k
  let v := s.view d p o
  if d = 20 || s.pageOff d p || (s.updateShadow d p o v).sh d p o = s.sh d p o || s.flying.any (s.isShupd d p o [v]) then s
  else s.send (s.shupdPacket d p o [v])

/-- Every block sends what has changed (R337): the registers that hold a value of their own, and each page's STAT.
DESIGN CHOICE: log entry 1. DEDUCED: log entry 87. -/
def State.sendChanges (s : State) : State :=
  let ks := s.regs.map (·.1)
  (ks ++ (ks.map (fun k => regKey (keyDie k) (keyPage k) Off.stat)).eraseDups).foldl (fun s k => s.sendChange k) s

/-- SHUPD (R37, R337): 1 to 16 values of consecutive registers that a block sent, in answer to SHREQ or on a change, reach the
shadows; where no packet with those values has come and they are the page's current ones, the block sends it now.
DEDUCED: log entry 87. -/
def execShupd (p : PageId) (off : Nat) (vals : List Word) (s : State) : Host.Outcome State Fault Refusal :=
  let d := p.die.val
  let q := p.page.val
  if !shupdFits vals then .fault .malformedCommand
  else
    .next (match s.takeWhere (s.isShupd d q off vals) with
      | some (_, t) => t.updateShadows d q off vals
      | none => if !s.pageOff d q && s.views d q off vals.length = vals then s.send (s.shupdPacket d q off vals) else s)

/-- SHREQ (R337): a page that has received the request sends all its shadowed registers, 16 to a packet.
DEDUCED: log entry 87. -/
def execShreq (p : PageId) (s : State) : Host.Outcome State Fault Refusal :=
  let d := p.die.val
  let q := p.page.val
  .next (match s.takeWhere (fun x => x.ptype == 0x43 && x.ddie.toNat == d && packetPage x == q) with
    | none => s
    | some (_, s) => if !hasHeader d q || s.pageOff d q then s
    else ((List.range 64).filter (fun w => (List.range 16).any (fun i => (regOf d q (64 * w + 4 * i)).isSome))).foldl (fun s w =>
      s.send (s.shupdPacket d q (64 * w) (s.views d q (64 * w) 16))) s)

/-- RC registers that hold a record or a peak, not a count. DEDUCED: log entry 96. -/
def isRecord (k : PageKind) (o : Nat) : Bool :=
  match k with
  | .ben => o == Off.benRsigWord
  | .wev => o == Off.wevFaultIdx || o == Off.wevFaultVal
  | .hlr => o == Off.hlrFaultAddrLo || o == Off.hlrFaultAddrHi || o == Off.hlrFaultElem
  | .xlt => o == Off.xltFaultVaLo || o == Off.xltFaultVaHi
  | .gal => o == Off.galRtpeak
  | .hbm => o == Off.hbmUaddrLo
  | .stkCtl => o == Off.stkUaddrLo
  | .stk => o == Off.stkRqpeak
  | .cru => o == Off.cruFaultSeq
  | _ => false

/-- The clear of an RC register by a read that returned `v` (R38): a subtraction from a count, or a clear of the bits returned as 1.
DEDUCED: log entry 96. -/
def State.clearRead (s : State) (d p o : Nat) (r : RegDesc) (v : Word) : State :=
  let w := s.reg d p o
  let s := s.setSh d p o (v &&& ~~~ (w32 r.rc))
  if r.rc = 0xFFFFFFFF && !((pageKind d p).any (isRecord · o)) then s.setReg d p o (w32 (w.toNat - v.toNat))
  else s.setReg d p o (w &&& ~~~ (v &&& w32 r.rc))

/-- The SAF_ IRQ_STAT bit that a register reports (R427). -/
def safReports (p o : Nat) : Nat :=
  if p = 0x08 && o = Off.safMbstat then 19
  else if p = 0x28 && o = Off.safWdexp then 18
  else if (p = 0x18 && o = Off.safIstep) || (p = 0x20 && o = Off.safTstep) then 17
  else if p = 0x40 && o = Off.safFlogn then 16
  else 0

/-- One register read (R18, R37, R38, R287): the shadow's value, 0 of an unmapped address or of a page without power. The
Weighbridge's own registers stand beside their shadows, which show them at once (R37, R39). DEDUCED: log entry 109. -/
def State.readReg (s : State) (off : Nat) : Word × State :=
  let d := keyDie off
  let p := keyPage off
  let o := keyOff off
  let s := if d = 20 && hasHeader d p then s.updateShadow d p o (s.view d p o) else s
  if unmapped off || s.pageOff d p then (0, s)
  else match regOf d p o with
    | none => (0, s)
    | some r =>
      let v := s.sh d p o
      let s := if r.rc = 0 then s else s.clearRead d p o r v
      (v, if d = 22 && safReports p o ≠ 0 then (s.setFld 22 0 Off.irqStat (safReports p o) 1 0).noteIrq 22 0 else s)

/-- UNSUPPORTED_REQUEST (R334, R339, R355): no BAR is hit; the count, the answer without data, and the AER vector. -/
def execUnsupportedRequest (isRead : Bool) (s : State) : Host.Outcome State Fault Refusal :=
  .next { s with hostOut := s.hostOut ++ [HostEvent.unsupported isRead] }.aerError

end Sys2Proof.Machine
end

