-- ==== Sys2Proof/Machine/Boot.lean ====
section
/-!
DEFINITION. Boot and the firmware download (R390 to R406): discovery and training, the boot window, the bundle and its checks, the
measurement entries, the policy, the load of the Benches, and READY.
-/

namespace Sys2Proof.Machine

/-! ### Discovery and training (R391, R393) -/

/-- Boot goes on: stage 0 has ended, and no FATAL state or READY has been reached. -/
def State.booting (s : State) : Bool := s.boot.begun && s.boot.state != 4 && s.boot.state != 5

/-- The Benches that boot brings up: neither retired nor absent, and powered. -/
def State.bootBenches (s : State) : List Nat := (List.range 16).filter (fun b => !s.isRetired b && s.uncoreOn b)

/-- The controllers that boot trains: die and page. -/
def State.bootMemories (s : State) : List (Nat × Nat) :=
  s.bootBenches.flatMap (fun b => [(b, 0x74), (b, 0x75)])
    ++ ((List.range 4).filter (fun q => s.uncoreOn (16 + q))).flatMap (fun q => (List.range 4).map (fun k => (16 + q, 0x10 + k)))

/-- DISCOVERY (R272, R391): stage 2; without a Weighbridge port UP boot stops; then the training of every powered stack and package
starts (stage 3). DEDUCED: log entry 61. -/
def execDiscovery (rep : DiscoveryReport) (s : State) : Host.Outcome State Fault Refusal :=
  .next (if !s.booting || s.boot.found then s
    else
      let s := s.discover rep
      if (List.range 4).all (fun q => s.lstate 20 q != 2) then s.bootFatal 0 0 0x0F10
      else
        let s := { s with boot := { s.boot with found := true, stage := if s.boot.stage = 1 then 3 else s.boot.stage } }.endStage 2
        s.bootMemories.foldl (fun s x => if x.1 < 16 then s.trainHbm x.1 x.2 else s.trainStk x.1 x.2) s)

/-- Stage 3 ends once no stack and no package that boot trains is still training. -/
def State.trainingEnds (s : State) : State :=
  if s.booting && s.boot.found && !s.boot.trained && s.bootMemories.all (fun x => s.rfld x.1 x.2 Off.stat 16 2 != 1) then
    { s with boot := { s.boot with trained := true } }.endStage 3
  else s

/-- HBM_TRAIN_DONE (R249, R393): during boot, a stack that fails makes its Bench absent. DEDUCED: log entry 6. -/
def execHbmTrainDone (b : BenchId) (stack : Fin 2) (failing : List (Nat × Nat)) (s : State) : Host.Outcome State Fault Refusal :=
  let p := 0x74 + stack.val
  .next (if s.rfld b p Off.stat 16 2 ≠ 1 then s
    else
      let s := s.hbmTrained b p failing
      if !s.booting || s.boot.trained then s
      else
        let s := if s.rfld b p Off.stat 16 2 = 3 then (s.absent b 0x0F12).loadTables else s
        s.trainingEnds)

/-- STK_TRAIN_DONE (R252, R393): during boot, a package that fails is recorded. -/
def execStkTrainDone (q pkg : Fin 4) (failing : List (Nat × Nat)) (s : State) : Host.Outcome State Fault Refusal :=
  let d := 16 + q.val
  let p := 0x10 + pkg.val
  .next (if s.rfld d p Off.stat 16 2 ≠ 1 then s
    else
      let s := s.stkTrained d p failing
      if !s.booting || s.boot.trained then s
      else
        let s := if s.rfld d p Off.stat 16 2 = 3 then s.bootCode 0 d 0x0F13 else s
        s.trainingEnds)

/-- PCIE_LINK_UP (R355, R391): the link is up, and after stage 0 the boot window opens. -/
def execPcieLinkUp (x16 : Bool) (speed : Fin 5) (s : State) : Host.Outcome State Fault Refusal :=
  .next (if !s.domOn 44 || !s.domOn 45 || s.safety.perst || s.boot.linkUp then s
    else
      let s := s.setReg 20 1 Off.wbgLink (w32 (0x10000 + (if x16 then 16 else 8) * 16 + speed.val + 1))
      let s := { s with boot := { s.boot with linkUp := true } }
      if s.booting && s.boot.state = 0 then { s with boot := { s.boot with state := 1, stage := 4 } }.endStage 1 else s)

/-! ### The boot window (R394 to R396, R404) -/

/-- The place of a byte of a chunk buffer: 0 A, 1 B. -/
def bufLoc (buf a : Nat) : Nat := loc 7 20 buf a

/-- The place of a byte of the bundle. -/
def bundleLoc (a : Nat) : Nat := loc 7 20 2 a

/-- A write to the window that is dropped: counted, and logged (R396). DEDUCED: log entry 98. -/
def State.windowDrop (s : State) (off code : Nat) : State :=
  { s with boot := { s.boot with drop := min 0xFFFFFFFF (s.boot.drop + 1) } }.logDrop .host 2 off code

/-- A write to the boot window beside its registers (R394, R396): `off` is the offset in BAR2. -/
def State.bufferWrite (s : State) (off : Nat) (data : Word) (whole : Bool) : State :=
  let buf := if off < 0xB0000 then 0 else 1
  if off < 0x90000 || 0xD0000 ≤ off then if 0x80000 ≤ off && off < 0x8001C then s else s.windowDrop off 0x0012
  else if !whole || off % 4 ≠ 0 then s.windowDrop off 0x0011
  else if s.boot.state ≠ 1 || (if buf = 0 then s.boot.lenA else s.boot.lenB) ≠ 0 then s.windowDrop off 0x0F33
  else s.putBytes (bufLoc buf (off - (if buf = 0 then 0x90000 else 0xB0000))) (leBytes 4 data.toNat)

/-- BOOT_BUFFER_WRITE (R394, R396). -/
def execBootBufferWrite (off : Nat) (data : Word) (whole : Bool) (s : State) : Host.Outcome State Fault Refusal :=
  .next (s.bufferWrite off data whole)

/-- The bytes of the bundle as accepted so far. -/
def State.bundle (s : State) (off n : Nat) : List Byte := s.bytesAt (bundleLoc off) n

/-- A field of the bundle. -/
def State.bundleNat (s : State) (off n : Nat) : Nat := leNat (s.bundle off n)

/-- The length in 64-byte units that the next chunk must have (R395); for chunk 0 it follows from the SIZE that its own header holds,
and 0 says that this SIZE is no bundle's. -/
def State.chunkUnits (s : State) (buf : Nat) : Nat :=
  let size := if s.boot.next = 0 then leNat (s.bytesAt (bufLoc buf 8) 4) else s.bundleNat 8 4
  if size % 64 ≠ 0 || size = 0 || 0x4000000 < size then 0 else min 2048 ((size - 131072 * s.boot.next) / 64)

/-- A write of BOOT_CHUNK (R395, R396). DEDUCED: log entry 98. -/
def State.chunkWrite (s : State) (data : Word) : State :=
  let seq := wfld data 0 16
  let buf := wfld data 16 1
  let len := wfld data 17 12
  let need := s.chunkUnits buf
  let reject := fun (code : Nat) => { s with boot := { s.boot with code := code } }
  if s.boot.state ≠ 1 then s.windowDrop 0x8000C 0x0F33
  else if seq ≠ s.boot.next then reject 0x0F20
  else if len = 0 || 2048 < len || (need ≠ 0 && len ≠ need) then reject 0x0F21
  else if (if buf = 0 then s.boot.lenA else s.boot.lenB) ≠ 0 then reject 0x0F33
  else { s with boot := if buf = 0 then { s.boot with lenA := len } else { s.boot with lenB := len } }

/-- BOOT_CHUNK (R395, R396). DEDUCED: log entry 98. -/
def execBootChunk (data : Word) (s : State) : Host.Outcome State Fault Refusal := .next (s.chunkWrite data)

/-- A write of BOOT_CTL (R396, R404). DEDUCED: log entry 98. -/
def State.retryWrite (s : State) (data : Word) : State :=
  if !wbit data 0 then if s.boot.state = 2 || s.boot.state = 4 || s.boot.state = 5 then s.windowDrop 0x80010 0x0F33 else s
  else if s.boot.state ≠ 3 && s.boot.state ≠ 1 then s.windowDrop 0x80010 0x0F34
  else
    let s := { s with mem := smClear s.mem (fun l => decide (7 ≤ locRegion l) && locDie l == 20 && locUnit l == 2) }
    { s with boot := { s.boot with state := 1, stage := 4, next := 0, lenA := 0, lenB := 0, bytes := 0,
                                   tries := min 0xFFFFFFFF (s.boot.tries + 1) } }

/-- BOOT_RETRY (R396, R404). DEDUCED: log entry 98. -/
def execBootRetry (data : Word) (s : State) : Host.Outcome State Fault Refusal := .next (s.retryWrite data)

/-! ### The bundle (R397 to R401) -/

/-- One entry of the section table. -/
structure Section where
  kind : Nat
  off : Nat
  len : Nat
  zero1 : Nat
  digest : List Byte
  zero2 : List Byte
  deriving DecidableEq, Repr

/-- The sections of the bundle, in table order. -/
def State.sections (s : State) : List Section :=
  (List.range (s.bundleNat 6 2)).map (fun i =>
    let o := 0x100 + 64 * i
    let f := fun (x : Nat) => s.bundleNat (o + x) 4
    ⟨f 0, f 4, f 8, f 0xC, s.bundle (o + 0x10) 32, s.bundle (o + 0x30) 16⟩)

/-- The header is malformed (0x0F22). -/
def State.headerBad (s : State) : Bool :=
  let size := s.bundleNat 8 4
  s.bundle 0 4 != ascii "ELBN" || s.bundleNat 4 2 != 1 || s.bundleNat 6 2 == 0 || decide (14 < s.bundleNat 6 2) || size % 64 != 0
    || decide (size < 0x100 + 64 * s.bundleNat 6 2) || decide (0x4000000 < size) || decide (128 < s.bundleNat 0xC 4)
    || (decide (7 < s.bundleNat 0x18 1) && s.bundleNat 0x18 1 != 0xFF) || s.bundleNat 0x19 7 != 0 || s.bundleNat 0xA0 96 != 0
    || s.sections.any (fun x => x.zero1 != 0 || x.zero2.any (· != 0))

/-- A kind is missing, repeated or reserved (0x0F29). -/
def kindsBad (l : List Section) : Bool :=
  let count := fun (k : Nat) => l.countP (fun x => x.kind == k)
  l.any (fun x => x.kind == 0 || decide (6 < x.kind)) || count 1 != 1 || count 2 != 1 || [3, 4, 5, 6].any (fun k => decide (1 < count k))

/-- The largest LENGTH of a kind, and what it must be a multiple of (R398). -/
def kindLimit (k : Nat) : Nat × Nat :=
  match k with
  | 1 => (0x1000000, 1)
  | 2 => (0x10000, 1)
  | 3 | 4 => (0x20000, 64)
  | 5 => (0x100000, 16)
  | _ => (0x3000000, 1)

/-- A section lies wrongly (0x0F2A): beyond SIZE, overlapping, misaligned or too long. -/
def sectionsBad (size : Nat) (l : List Section) : Bool :=
  l.any (fun x => x.len == 0 || decide (size < x.off + x.len) || x.off % 4096 != 0 || decide (x.off < 0x1000)
      || decide ((kindLimit x.kind).1 < x.len) || x.len % (kindLimit x.kind).2 != 0)
    || (List.range l.length).any (fun i => (List.range i).any (fun j =>
        match l[i]?, l[j]? with
        | some x, some y => rangesMeet x.off x.len y.off y.len
        | _, _ => false))

/-- The digest that SIG signs (R397). -/
def State.signedDigest (s : State) : List Byte := sha256 (s.bundle 0 0x60 ++ s.bundle 0x100 (64 * s.bundleNat 6 2))

/-- The signer is authorised and the signature verifies (R399). -/
def State.signerOk (s : State) : Bool :=
  let slot := s.bundleNat 0x18 1
  let key := s.bundle 0x20 64
  let auth := if (List.range 8).all (fun i => (s.fuses.slot i).1 == 0) then
      slot == 0xFF && key == (List.range 64).map Config.releaseKeyByte
    else decide (slot < 8) && (s.fuses.slot slot).1 == 1 && sha256 key == (s.fuses.slot slot).2
  auth && ecdsaVerify key s.signedDigest (s.bundle 0x60 64)

/-- The code of the checks made when chunk 0 is accepted (R401), 0 where they pass. -/
def State.checkHeader (s : State) : Nat :=
  if s.headerBad then 0x0F22
  else if kindsBad s.sections then 0x0F29
  else if sectionsBad (s.bundleNat 8 4) s.sections then 0x0F2A
  else if !s.signerOk then 0x0F25
  else if s.bundleNat 0xC 4 < s.fuses.svn then 0x0F26
  else 0

/-- PSVN of the SAFPOL section (R398). -/
def State.psvn (s : State) (x : Section) : Nat := s.bundleNat x.off 4

/-- The code of the checks made when the last byte of a section is hashed (R401). -/
def State.checkSection (s : State) (x : Section) : Nat :=
  if sha256 (s.bundle x.off x.len) ≠ x.digest then 0x0F24
  else if x.kind ≠ 2 then 0
  else if x.len ≠ 0x80 + s.bundleNat (x.off + 4) 4 then 0x0F2A
  else if !ecdsaVerify ((List.range 64).map Config.safetyKeyByte) (sha256 (s.bundle x.off 0x40 ++ s.bundle (x.off + 0x80) (x.len - 0x80)))
      (s.bundle (x.off + 0x40) 64) then 0x0F27
  else if s.psvn x < s.fuses.svn then 0x0F28
  else 0

/-- A byte at this offset belongs to the header, the table or a section. -/
def inBundle (l : List Section) (a : Nat) : Bool :=
  decide (a < 0x100 + 64 * l.length) || l.any (fun x => decide (x.off ≤ a) && decide (a < x.off + x.len))

/-- The code of all checks that bundle bytes `lo` to `hi` − 1 complete. DEDUCED: log entry 98. -/
def State.checkChunk (s : State) (lo hi : Nat) : Nat :=
  let head := if lo = 0 then s.checkHeader else 0
  if head ≠ 0 then head
  else
    let done := s.sections.filter (fun x => decide (lo < x.off + x.len) && decide (x.off + x.len ≤ hi))
    match (done.map s.checkSection).find? (· != 0) with
    | some code => code
    | none => if s.mem.any (fun e => decide (bundleLoc lo ≤ e.1) && decide (e.1 < bundleLoc hi) && !inBundle s.sections (e.1 - bundleLoc 0))
      then 0x0F22 else 0

/-- The place of DATA: stack A of the lowest-numbered Bench that boot brings up (R398). -/
def State.dataBench (s : State) : Option Nat := s.bootBenches.head?

/-- The part of a section that lies in bundle bytes `lo` to `hi` − 1: its first offset in the bundle, and its length. -/
def Section.part (x : Section) (lo hi : Nat) : Nat × Nat := (max lo x.off, min hi (x.off + x.len) - max lo x.off)

/-- CHUNK_ACCEPT (R395, R401): the submitted chunk, buffer A's first, is checked and placed. A chunk with DATA bytes waits until its
stack has passed training. A second chunk submitted under the same SEQ is out of order from then on (its length counts from 4,096): its
buffer stays busy until a RETRY. DEDUCED: log entry 98. -/
def execChunkAccept (s : State) : Host.Outcome State Fault Refusal :=
  let buf := if s.boot.lenA = 0 || 2048 < s.boot.lenA then 1 else 0
  let len := if buf = 0 then s.boot.lenA else s.boot.lenB
  .next (if s.boot.state ≠ 1 || len = 0 || 2048 < len then s
    else
      let lo := 131072 * s.boot.next
      let hi := lo + 64 * len
      let t := s.putBytes (bundleLoc lo) (s.bytesAt (bufLoc buf 0) (64 * len))
      let data := (t.sections.filter (fun x => x.kind == 6 && decide ((x.part lo hi).2 ≠ 0))).map (fun x => (x, x.part lo hi))
      let ready := s.boot.found && s.dataBench.any (fun b => s.rfld b 0x74 Off.stat 16 2 == 2)
      let code := t.checkChunk lo hi
      if code ≠ 0 then ({ t with boot := { t.boot with state := 3, code := code } }.bootCode 0 0 code).raise 20 8 0x20000
      else if !data.isEmpty && !ready then s
      else
        let t := data.foldl (fun t x => (t.targetWrite (loc 1 (s.dataBench.getD 0) 0 (x.2.1 - x.1.off)) 0 (t.bundle x.2.1 x.2.2)).st) t
        let stale := fun (n : Nat) => if n = 0 then 0 else n % 4096 + 4096
        let boot := { t.boot with next := t.boot.next + 1, bytes := hi, lenA := if buf = 0 then 0 else stale t.boot.lenA,
                                  lenB := if buf = 1 then 0 else stale t.boot.lenB }
        if t.bundleNat 8 4 ≤ hi then { t with boot := { boot with state := 2, stage := 5 } }.endStage 4
        else { t with boot := boot })

/-! ### Stages 5 to 8 (R402, R403) -/

/-- BOOT_STAGE_5 (R402): the entries of the bundle, its signer and its sections. -/
def execBootStage5 (s : State) : Host.Outcome State Fault Refusal :=
  .next (if s.boot.state ≠ 2 || s.boot.stage ≠ 5 then s
    else
      let t := (s.measure 2 (s.bundleNat 0xC 4) (s.bundleNat 8 4) s.signedDigest).measure 3 0 64 (sha256 (s.bundle 0x20 64))
      let t := s.sections.foldl (fun t x => t.measure (0x10 + x.kind) (if x.kind = 2 then s.psvn x else 0) x.len x.digest) t
      { t with boot := { t.boot with stage := 6 } }.endStage 5)

/-- A section of a kind. -/
def State.sectionOf (s : State) (k : Nat) : Option Section := s.sections.find? (fun x => x.kind == k)

/-- The bytes of the section of a kind, empty where there is none. -/
def State.sectionBytes (s : State) (k : Nat) : List Byte := ((s.sectionOf k).map (fun x => s.bundle x.off x.len)).getD []

/-- BOOT_POLICY_HANDOFF (R410): the body within its bounds is applied; any other is refused, and boot stops.
DESIGN CHOICE: log entry 101. -/
def execBootPolicyHandoff (s : State) : Host.Outcome State Fault Refusal :=
  .next (if s.boot.state ≠ 2 || s.boot.stage ≠ 6 then s
    else
      let sec := s.sectionBytes 2
      let body := sec.drop 0x80
      if policyOk body then { s.applyPolicy body (leNat (sec.take 4)) true with boot := { s.boot with stage := 7 } }.endStage 6
      else (s.faultLog 0x100C 22 0 0).bootFatal 0 0 0x0F32)

/-- FIRMWARE_START_TIMEOUT (R403). -/
def execFirmwareStartTimeout (s : State) : Host.Outcome State Fault Refusal :=
  .next (if s.boot.state ≠ 2 || s.boot.stage ≠ 7 || s.boot.started then s else s.bootFatal 0 0 0x0F31)

/-- One BENCHINIT entry for one Bench (R403): an FW write, applied before the next; where it starts a check, the check's result is
awaited, and a refusal stops boot. DEDUCED: log entry 99. -/
def State.benchInit (s : State) (b : Nat) (e : List Byte) : State :=
  let f := fun (o n : Nat) => leNat ((e.drop o).take n)
  let p := f 2 1
  if s.boot.state = 4 || !nbit (f 0 2) b then s
  else
    let s := (s.busWrite .fw (regKey b p (f 4 2)) (w32 (f 8 4)) true).flushPage b p
    if hasHeader b p && wbit (s.reg b p Off.stat) 4 then
      let s := s.checkResult b p
      if s.en b p then s else s.bootFatal p b 0x0F36
    else s

/-- An image copied into bank 0 of a Face, or as unit 6 of the Molt, by way of its store (R403). DEDUCED: log entry 99. -/
def State.loadImage (s : State) (b u : Nat) (img : List Byte) : State :=
  if img = [] then s
  else
    let room := (if u = 6 then 0x200000 else 0x800000) - img.length
    let at_ := 64 * (Config.imageStage s.fresh % (room / 64 + 1))
    (((s.draw).putBytes (fsLoc b u at_) img).putBytes (loc 5 b u 0) img)

/-- The self-test of a Slab, awaited (R135, R403). -/
def State.bootSelfTest (s : State) (b i failing : Nat) : State :=
  let p := 0x20 + i
  let s := s.selfTest b p 1
  if !wbit (s.reg b p Off.stat) 21 then s
  else (((s.setFld b p Off.stat 21 1 0).setReg b p Off.slbTfail0 (w32 failing)).setReg b p Off.slbTfail1 (w32 (failing / 2 ^ 32))).raise b p 0x20000

/-- One Bench loaded (R403, R412): its Slab-array domain comes on, BENCHINIT is applied, the images are copied, the Slabs tested.
DEDUCED: log entry 99. -/
def State.loadBench (s : State) (script bench molt : List Byte) (failing : List (Nat × BitVec 64)) (b : Nat) : State :=
  if s.boot.state = 4 then s
  else
    let s := if s.domOn b then s else s.domainComes b
    let s := (chunksOf 16 (script.length / 16) script).foldl (fun s e => s.benchInit b e) s
    if s.boot.state = 4 then s
    else
      let s := (List.range 6).foldl (fun s u => s.loadImage b u bench) s
      let s := s.loadImage b 6 molt
      (List.range 24).foldl (fun s i =>
        s.bootSelfTest b i (((failing.find? (fun (x : Nat × BitVec 64) => x.1 == 32 * b + i)).map (fun x => x.2.toNat)).getD 0)) s

/-- BOOT_BENCH_LOAD (R403): the firmware reports its start, and every Bench is loaded, in ascending Bench ID. `failing` gives the
failing pairs of the Slabs that have some, at 32 × Bench + Slab. -/
def execBootBenchLoad (failing : List (Nat × BitVec 64)) (s : State) : Host.Outcome State Fault Refusal :=
  .next (if s.boot.state ≠ 2 || s.boot.stage ≠ 7 || !s.boot.trained then s
    else
      let s := { s with boot := { s.boot with started := true } }
      let t := s.bootBenches.foldl (fun t b => t.loadBench (s.sectionBytes 5) (s.sectionBytes 3) (s.sectionBytes 4) failing b) s
      if t.boot.state = 4 then t else { t with boot := { t.boot with stage := 8 } }.endStage 7)

/-- The link bitmap of the CONFIG entry (R402): one bit for each link that is UP. DESIGN CHOICE: log entry 100. -/
def State.linkBitmap (s : State) : Nat :=
  linkOrder.foldl (fun n x => if s.lstate x.1 x.2 = 2 then n ||| 2 ^ (Config.linkBit x.1 x.2).val else n) 0

/-- The 64-byte record that the CONFIG entry measures (R402). -/
def State.configRecord (s : State) : List Byte :=
  padTo 64 0 (leBytes 2 s.retired ++ leBytes 2 (s.reg 20 8 Off.wbgAbsent).toNat ++ leBytes 1 (s.fuses.dbgLock.toNat + 2 * s.fuses.pelock.toNat)
    ++ leBytes 6 s.linkBitmap)

/-- READY (R375, R392, R402, R421): the CONFIG entry is written, the log closes, the watchdog is armed where WDPER asks for it, and
the panel reports READY. -/
def execReady (s : State) : Host.Outcome State Fault Refusal :=
  .next (if s.boot.state ≠ 2 || s.boot.stage ≠ 8 then s
    else
      let s := (s.measure 0x20 0 64 (sha256 s.configRecord)).setFld 21 8 Off.carMcnt 31 1 1
      let s := if s.pol 0x14 4 = 0 then s else s.armWatchdog (s.pol 0x14 4)
      let s := ({ s with boot := { s.boot with state := 5 } }.endStage 8).setReg 20 8 Off.wbgBstat 1
      s.raise 20 8 0x10000)

end Sys2Proof.Machine
end

