-- ==== Sys2Proof/Machine/Bars.lean ====
section
/-!
DEFINITION. The host's and the agents' accesses to BAR0 and BAR2 (R17, R26, R27, R335, R394): register writes of one bus cycle,
doorbells, the boot window, and reads.
-/

namespace Sys2Proof.Machine

/-! ### Writes -/

/-- A write to BAR2 (R335, R342, R394): a doorbell, a register of the boot window or one of its buffers; elsewhere, and where it is
partial, it is dropped. DEDUCED: log entry 98. -/
def State.bar2Write (s : State) (w : BusWrite) : State :=
  let off := w.offset
  let o := off % 0x1000
  let whole := w.be == 15 && off % 4 == 0
  if off < 0x41000 then
    if 8 ≤ o then s.logDrop w.agent 2 off 0x0012
    else if !whole then s.logDrop w.agent 2 off 0x0011
    else if o = 0 then s.tailBell (off / 0x1000) w.data
    else s.headBell (off / 0x1000) w.data
  else if off < 0x80000 || endpoint.bar2Size ≤ off then s.logDrop w.agent 2 off 0x0012
  else if off < 0x8001C then
    if !whole then s.windowDrop off 0x0011
    else if off = 0x8000C then s.chunkWrite w.data
    else if off = 0x80010 then s.retryWrite w.data
    else s
  else s.bufferWrite off w.data (w.be == 15)

/-- The order of agents in one bus cycle (R26). -/
def agentRank : Agent → Nat
  | .safety => 0
  | .carapace => 1
  | .fw => 2
  | .host => 3

/-- The writes of one bus cycle, those of one page in the order of R26. DESIGN CHOICE: log entry 8. -/
def busOrder (ws : List BusWrite) : List BusWrite := (List.range 4).flatMap (fun r => ws.filter (fun w => agentRank w.agent == r))

/-- REGISTER_WRITE (R26, R27, R335). DESIGN CHOICE: log entry 8. -/
def execRegisterWrite (ws : List BusWrite) (s : State) : Host.Outcome State Fault Refusal :=
  .next ((busOrder ws).foldl (fun s w => if w.bar2 then s.bar2Write w else s.busWrite w.agent w.offset w.data (w.be == 15)) s)

/-! ### Reads -/

/-- A word of BAR2 (R335, R394): the boot window's registers, and 0 elsewhere. DEDUCED: log entry 98. -/
def State.bar2Word (s : State) (off : Nat) : Word :=
  let b := s.boot
  if off = 0x80000 then w32 (b.stage + 16 * b.state + 256 * (b.lenA != 0).toNat + 512 * (b.lenB != 0).toNat)
  else if off = 0x80004 then w32 b.code
  else if off = 0x80008 then w32 b.next
  else if off = 0x80014 then w32 b.tries
  else if off = 0x80018 then w32 b.drop
  else 0

/-- A read of BAR0 or BAR2 (R17, R37, R335): the bytes addressed, of one register or, in a 64-bit read, of two in one snapshot. -/
def State.busRead (s : State) (r : BusRead) : State :=
  let base := r.offset / 4 * 4
  let word := fun (s : State) (off : Nat) => if r.bar2 then (s.bar2Word off, s) else s.readReg off
  let x := word s base
  if r.size = 8 then
    let y := word s (base + 4)
    let t := word x.2 (base + 4)
    { t.2 with readData := leBytes 4 x.1.toNat ++ leBytes 4 y.1.toNat }
  else { x.2 with readData := ((leBytes 4 x.1.toNat).drop (r.offset % 4)).take r.size }

/-- READ_CLEAR (R38). DEDUCED: log entry 96. -/
def execReadClear (r : BusRead) (s : State) : Host.Outcome State Fault Refusal := .next (s.busRead r)

/-- SAF_IRQ_CLEAR_ON_READ (R427): a read of a register that a SAF_ IRQ_STAT bit reports. -/
def execSafIrqClearOnRead (r : BusRead) (s : State) : Host.Outcome State Fault Refusal :=
  let off := r.offset / 4 * 4
  .next (if !r.bar2 && keyDie off = 22 && safReports (keyPage off) (keyOff off) ≠ 0 then s.busRead r else s)

end Sys2Proof.Machine
end

