-- ==== Sys2Proof/Machine/Sideband.lean ====
section
/-!
DEFINITION. The SMBus sideband of the Safety Partition (R442, R443) and the test port (R444).
-/

namespace Sys2Proof.Machine

/-! ### SMBus -/

/-- The last answer of the sideband; `none` for a NACK. -/
def State.smbAnswer (s : State) (a : Option (List Byte)) : State := { s with side := { s.side with answer := a } }

/-- One byte of the CRC-8 of SMBus, `n` bits left. PRESUMED: log entry 14. -/
def crc8 : Nat → Nat → Nat
  | 0, c => c
  | n + 1, c => crc8 n (if c < 128 then 2 * c else (2 * c) % 256 ^^^ 7)

/-- The packet error code of a string of bytes. PRESUMED: log entry 14. -/
def smbPec (bs : List Byte) : Byte := BitVec.ofNat 8 (bs.foldl (fun c b => crc8 8 (c ^^^ b.toNat)) 0)

/-- A block read (R442): the data, with the PEC over the whole transaction appended. -/
def blockRead (cmd : Nat) (data : List Byte) : List Byte :=
  let addr := 2 * (0x4C + Config.smbStrap.val)
  data ++ [smbPec ([BitVec.ofNat 8 addr, BitVec.ofNat 8 cmd, BitVec.ofNat 8 (addr + 1), BitVec.ofNat 8 data.length] ++ data)]

/-- A sideband read of the selected register, `o` bytes further on (R443): the Safety Partition's own copy, 0 of any other selection.
DEDUCED: log entry 103. -/
def State.sideReg (s : State) (o : Nat) : Word :=
  let d := s.side.die
  let p := s.side.page
  let off := (s.side.off + o) % 65536
  if (d = 22 || (d ≤ 20 && p = 0xF0)) && off < 4096 && (regOf d p off).isSome then s.view d p off else 0

/-- The offset advances. DEDUCED: log entry 103. -/
def State.sideNext (s : State) (n : Nat) : State := { s with side := { s.side with off := (s.side.off + n) % 65536 } }

/-- IDENT (R442). -/
def execIdent (s : State) : Host.Outcome State Fault Refusal :=
  .next (s.smbAnswer (if s.safety.inputOk then
    some (blockRead 0x01 (leBytes 2 0x1600 ++ leBytes 1 s.fuses.order ++ leBytes 2 s.retired ++ leBytes 3 0 ++ serial)) else none))

/-- STATUS (R442). -/
def execStatus (s : State) : Host.Outcome State Fault Refusal :=
  .next (s.smbAnswer (if s.safety.inputOk then some (leBytes 2 (s.rfld 22 0 Off.stat 16 5 + 256 * s.boot.state)) else none))

/-- SELECT (R442, R443): four bytes; a wrong PEC is NACKed and changes nothing. DEDUCED: log entry 103. -/
def execSelect (bytes : List Byte) (pecOk : Bool) (s : State) : Host.Outcome State Fault Refusal :=
  let f := fun (i n : Nat) => leNat ((bytes.drop i).take n)
  .next (if !s.safety.inputOk || !pecOk || bytes.length ≠ 4 then s.smbAnswer none
    else { s with side := { s.side with die := f 0 1, page := f 1 1, off := f 2 2, answer := some [] } })

/-- READ (R442, R443). -/
def execSmbRead (s : State) : Host.Outcome State Fault Refusal :=
  .next (if s.safety.inputOk then (s.smbAnswer (some (blockRead 0x11 (leBytes 4 (s.sideReg 0).toNat)))).sideNext 4 else s.smbAnswer none)

/-- READ8 (R442, R443). -/
def execRead8 (s : State) : Host.Outcome State Fault Refusal :=
  .next (if s.safety.inputOk then
      (s.smbAnswer (some (blockRead 0x12 (leBytes 4 (s.sideReg 0).toNat ++ leBytes 4 (s.sideReg 4).toNat)))).sideNext 8
    else s.smbAnswer none)

/-- SMBUS_TIMEOUT (R442): the transaction held too long is abandoned, without an answer. -/
def execSmbusTimeout (s : State) : Host.Outcome State Fault Refusal := .next (s.smbAnswer none)

/-! ### The test port -/

/-- The identification register (R444). -/
def idcode : Word := 0x11600A35

/-- The port works: domain 44 is on (R444). -/
def State.tapOn (s : State) : Bool := s.domOn 44

/-- An instruction in the instruction register, with the short register it selects and the drive of the pins.
PRESUMED: log entry 15. -/
def State.setIr (s : State) (ir : BitVec 8) (dr : Word) (drive : Nat) : State := { s with side := { s.side with ir := ir, dr := dr, drive := drive } }

/-- An instruction that takes hold only while PERST_N is asserted, and acts as BYPASS otherwise (R444). -/
def State.heldIr (s : State) (ir : BitVec 8) (drive : Nat) : State :=
  if !s.tapOn then s else s.setIr ir 0 (if s.safety.perst then drive else 0)

/-- EXTEST (R444): the boundary-scan cells drive the pins. -/
def execExtest (s : State) : Host.Outcome State Fault Refusal := .next (s.heldIr 0x00 1)

/-- CLAMP (R444): the pins hold what the boundary-scan register gives. PRESUMED: log entry 15. -/
def execClamp (s : State) : Host.Outcome State Fault Refusal := .next (s.heldIr 0x03 1)

/-- HIGHZ (R444): nothing drives the outputs. PRESUMED: log entry 15. -/
def execHighz (s : State) : Host.Outcome State Fault Refusal := .next (s.heldIr 0x04 2)

/-- SAMPLE/PRELOAD (R444): the 416 cells take the pins as they stand, or a preload; the pins are not disturbed. -/
def execSamplePreload (pins : List Bool) (_preload : Bool) (s : State) : Host.Outcome State Fault Refusal :=
  if !scanFits pins then .fault .malformedCommand
  else .next (if !s.tapOn then s else { s.setIr 0x01 0 0 with side := { (s.setIr 0x01 0 0).side with cells := pins } })

/-- IDCODE (R444). -/
def execIdcode (s : State) : Host.Outcome State Fault Refusal := .next (if !s.tapOn then s else s.setIr 0x02 idcode 0)

/-- BYPASS (R444): code 0xFF and every code that names no other instruction. -/
def execBypass (code : BitVec 8) (s : State) : Host.Outcome State Fault Refusal :=
  .next (if !s.tapOn || code.toNat ≤ 4 then s else s.setIr code 0 0)

/-- TRST_N low (R444): Test-Logic-Reset, where IEEE 1149.1 selects the identification register and leaves the pins to the panel.
PRESUMED: log entry 15. -/
def execTrstNAssert (s : State) : Host.Outcome State Fault Refusal := .next (if !s.tapOn then s else s.setIr 0x02 idcode 0)

end Sys2Proof.Machine
end

