-- ==== Sys2Proof/Machine/Dispatch.lean ====
section
/-! DEFINITION. One arm for each command: a direct call of its meaning. -/

namespace Sys2Proof.Machine

open Sys2Proof

/-- The effect of a command on everything but the queue. -/
def exec (i : Instr) (s : State) : Host.Outcome State Fault Refusal :=
  match i with
  | .registerWrite ws => Sys2Proof.Machine.execRegisterWrite ws s
  | .ctlSrst w => Sys2Proof.Machine.execCtlSrst w s
  | .ctlQuiesceRequest w => Sys2Proof.Machine.execCtlQuiesceRequest w s
  | .ctlQuiesceClear w => Sys2Proof.Machine.execCtlQuiesceClear w s
  | .ctlEnable w => Sys2Proof.Machine.execCtlEnable w s
  | .ctlDisable w => Sys2Proof.Machine.execCtlDisable w s
  | .ctlLock w => Sys2Proof.Machine.execCtlLock w s
  | .consistencyCheckResult p => Sys2Proof.Machine.execConsistencyCheckResult p s
  | .heldWriteApply p => Sys2Proof.Machine.execHeldWriteApply p s
  | .quiesced p => Sys2Proof.Machine.execQuiesced p s
  | .readClear r => Sys2Proof.Machine.execReadClear r s
  | .irqSet w => Sys2Proof.Machine.execIrqSet w s
  | .wbgDrain a data => Sys2Proof.Machine.execWbgDrain a data s
  | .writeDrainDone => Sys2Proof.Machine.execWriteDrainDone s
  | .wbgIrqrearm a data => Sys2Proof.Machine.execWbgIrqrearm a data s
  | .msixVectorUnmask m => Sys2Proof.Machine.execMsixVectorUnmask m s
  | .regwr p => Sys2Proof.Machine.execRegwr p s
  | .regack tag => Sys2Proof.Machine.execRegack tag s
  | .shupd p off vals => Sys2Proof.Machine.execShupd p off vals s
  | .shreq p => Sys2Proof.Machine.execShreq p s
  | .sysNop c => Sys2Proof.Machine.execSysNop c s
  | .park c => Sys2Proof.Machine.execPark c s
  | .trap c => Sys2Proof.Machine.execTrap c s
  | .fence c => Sys2Proof.Machine.execFence c s
  | .swap c => Sys2Proof.Machine.execSwap c s
  | .bankSwapCommit c => Sys2Proof.Machine.execBankSwapCommit c s
  | .alu c => Sys2Proof.Machine.execAlu c s
  | .addi c => Sys2Proof.Machine.execAddi c s
  | .andi c => Sys2Proof.Machine.execAndi c s
  | .ori c => Sys2Proof.Machine.execOri c s
  | .xori c => Sys2Proof.Machine.execXori c s
  | .shi c => Sys2Proof.Machine.execShi c s
  | .movw c => Sys2Proof.Machine.execMovw c s
  | .ld c => Sys2Proof.Machine.execLd c s
  | .st c => Sys2Proof.Machine.execSt c s
  | .br c => Sys2Proof.Machine.execBr c s
  | .jal c => Sys2Proof.Machine.execJal c s
  | .jalr c => Sys2Proof.Machine.execJalr c s
  | .csr c => Sys2Proof.Machine.execCsr c s
  | .lselWrite c => Sys2Proof.Machine.execLselWrite c s
  | .fset c => Sys2Proof.Machine.execFset c s
  | .fclr c => Sys2Proof.Machine.execFclr c s
  | .cadd c => Sys2Proof.Machine.execCadd c s
  | .cset c => Sys2Proof.Machine.execCset c s
  | .vf32 c => Sys2Proof.Machine.execVf32 c s
  | .vtabf c => Sys2Proof.Machine.execVtabf c s
  | .vtabd c => Sys2Proof.Machine.execVtabd c s
  | .vbf16 c => Sys2Proof.Machine.execVbf16 c s
  | .vfp16 c => Sys2Proof.Machine.execVfp16 c s
  | .vi32 c => Sys2Proof.Machine.execVi32 c s
  | .vcmp c => Sys2Proof.Machine.execVcmp c s
  | .vcvt c => Sys2Proof.Machine.execVcvt c s
  | .vld c => Sys2Proof.Machine.execVld c s
  | .vst c => Sys2Proof.Machine.execVst c s
  | .vcompress c => Sys2Proof.Machine.execVcompress c s
  | .vexpand c => Sys2Proof.Machine.execVexpand c s
  | .vbcast c => Sys2Proof.Machine.execVbcast c s
  | .vmovg c => Sys2Proof.Machine.execVmovg c s
  | .vsummary c => Sys2Proof.Machine.execVsummary c s
  | .viota c => Sys2Proof.Machine.execViota c s
  | .pred c => Sys2Proof.Machine.execPred c s
  | .mma c => Sys2Proof.Machine.execMma c s
  | .mmaAcc c => Sys2Proof.Machine.execMmaAcc c s
  | .tileLoadStationary c => Sys2Proof.Machine.execTileLoadStationary c s
  | .tileDrain c => Sys2Proof.Machine.execTileDrain c s
  | .chuteMv c => Sys2Proof.Machine.execChuteMv c s
  | .haul c => Sys2Proof.Machine.execHaul c s
  | .wgatherRows c => Sys2Proof.Machine.execWgatherRows c s
  | .wgatherExpand c => Sys2Proof.Machine.execWgatherExpand c s
  | .wgatherPack c => Sys2Proof.Machine.execWgatherPack c s
  | .wmerge c => Sys2Proof.Machine.execWmerge c s
  | .wsegred c => Sys2Proof.Machine.execWsegred c s
  | .wroute c => Sys2Proof.Machine.execWroute c s
  | .coll c => Sys2Proof.Machine.execColl c s
  | .taskBegin c => Sys2Proof.Machine.execTaskBegin c s
  | .taskEnd c => Sys2Proof.Machine.execTaskEnd c s
  | .guard u => Sys2Proof.Machine.execGuard u s
  | .taskEndAbort u => Sys2Proof.Machine.execTaskEndAbort u s
  | .lsync c => Sys2Proof.Machine.execLsync c s
  | .lsyncRelease c => Sys2Proof.Machine.execLsyncRelease c s
  | .queueEntryStart u q par => Sys2Proof.Machine.execQueueEntryStart u q par s
  | .slabLoadComplete u k => Sys2Proof.Machine.execSlabLoadComplete u k s
  | .slabStreamComplete u => Sys2Proof.Machine.execSlabStreamComplete u s
  | .completionTokenPush u q => Sys2Proof.Machine.execCompletionTokenPush u q s
  | .tileEnterQueue u => Sys2Proof.Machine.execTileEnterQueue u s
  | .tileDrainComplete u => Sys2Proof.Machine.execTileDrainComplete u s
  | .chuteComplete u => Sys2Proof.Machine.execChuteComplete u s
  | .slbTest w => Sys2Proof.Machine.execSlbTest w s
  | .selfTestDone b slab failing => Sys2Proof.Machine.execSelfTestDone b slab failing s
  | .ringSlotComplete u r => Sys2Proof.Machine.execRingSlotComplete u r s
  | .ringSignalDeferred u => Sys2Proof.Machine.execRingSignalDeferred u s
  | .vecSeedLd w => Sys2Proof.Machine.execVecSeedLd w s
  | .sieveTensorClose u ch => Sys2Proof.Machine.execSieveTensorClose u ch s
  | .weevilOpComplete u => Sys2Proof.Machine.execWeevilOpComplete u s
  | .wrouteComplete u => Sys2Proof.Machine.execWrouteComplete u s
  | .rsig p => Sys2Proof.Machine.execRsig p s
  | .remoteSignalRoomApply u => Sys2Proof.Machine.execRemoteSignalRoomApply u s
  | .depStall u => Sys2Proof.Machine.execDepStall u s
  | .depmodeWrite w => Sys2Proof.Machine.execDepmodeWrite w s
  | .fccResume w => Sys2Proof.Machine.execFccResume w s
  | .fccExcClr w => Sys2Proof.Machine.execFccExcClr w s
  | .benchHaulerAccept u => Sys2Proof.Machine.execBenchHaulerAccept u s
  | .haulComplete h => Sys2Proof.Machine.execHaulComplete h s
  | .hlrKick w => Sys2Proof.Machine.execHlrKick w s
  | .kickRunStart h => Sys2Proof.Machine.execKickRunStart h s
  | .xltInv w => Sys2Proof.Machine.execXltInv w s
  | .xltInvDone b => Sys2Proof.Machine.execXltInvDone b s
  | .xltWalkDone b ag va wr => Sys2Proof.Machine.execXltWalkDone b ag va wr s
  | .bankCapRelease b => Sys2Proof.Machine.execBankCapRelease b s
  | .memoryRequestTimeout b tag => Sys2Proof.Machine.execMemoryRequestTimeout b tag s
  | .galFlushWriteback w => Sys2Proof.Machine.execGalFlushWriteback w s
  | .galFlushInvalidate w => Sys2Proof.Machine.execGalFlushInvalidate w s
  | .galFlushDone b => Sys2Proof.Machine.execGalFlushDone b s
  | .galEpochFence w => Sys2Proof.Machine.execGalEpochFence w s
  | .galleryWayClearDone b => Sys2Proof.Machine.execGalleryWayClearDone b s
  | .hbmTrain w => Sys2Proof.Machine.execHbmTrain w s
  | .hbmTrainDone b stack failing => Sys2Proof.Machine.execHbmTrainDone b stack failing s
  | .stkTrain w => Sys2Proof.Machine.execStkTrain w s
  | .stkTrainDone q pkg failing => Sys2Proof.Machine.execStkTrainDone q pkg failing s
  | .patrolScrub c line e => Sys2Proof.Machine.execPatrolScrub c line e s
  | .reduce u => Sys2Proof.Machine.execReduce u s
  | .gather u => Sys2Proof.Machine.execGather u s
  | .bcast u => Sys2Proof.Machine.execBcast u s
  | .atomicBatch u => Sys2Proof.Machine.execAtomicBatch u s
  | .atomicBatchComplete u => Sys2Proof.Machine.execAtomicBatchComplete u s
  | .prefetch u => Sys2Proof.Machine.execPrefetch u s
  | .prefetchComplete u => Sys2Proof.Machine.execPrefetchComplete u s
  | .frameReceive p fr => Sys2Proof.Machine.execFrameReceive p fr s
  | .rdreq p => Sys2Proof.Machine.execRdreq p s
  | .rdrsp p => Sys2Proof.Machine.execRdrsp p s
  | .wrreq p => Sys2Proof.Machine.execWrreq p s
  | .wrack p => Sys2Proof.Machine.execWrack p s
  | .atomreq p => Sys2Proof.Machine.execAtomreq p s
  | .atomrsp p => Sys2Proof.Machine.execAtomrsp p s
  | .disc p => Sys2Proof.Machine.execDisc p s
  | .discrsp p => Sys2Proof.Machine.execDiscrsp p s
  | .rtload p => Sys2Proof.Machine.execRtload p s
  | .fctlEnter p => Sys2Proof.Machine.execFctlEnter p s
  | .fctlMode p => Sys2Proof.Machine.execFctlMode p s
  | .fctlLeave p => Sys2Proof.Machine.execFctlLeave p s
  | .lnkTrain w => Sys2Proof.Machine.execLnkTrain w s
  | .linkTrainingDone p tx rx => Sys2Proof.Machine.execLinkTrainingDone p tx rx s
  | .laneSwap p lane => Sys2Proof.Machine.execLaneSwap p lane s
  | .laneSwapDone p => Sys2Proof.Machine.execLaneSwapDone p s
  | .discovery rep => Sys2Proof.Machine.execDiscovery rep s
  | .lnkFence a data => Sys2Proof.Machine.execLnkFence a data s
  | .lnkReadmit a data => Sys2Proof.Machine.execLnkReadmit a data s
  | .fenceQuiet => Sys2Proof.Machine.execFenceQuiet s
  | .fenceEnterTimeout => Sys2Proof.Machine.execFenceEnterTimeout s
  | .fabricRequestTimeout b tag => Sys2Proof.Machine.execFabricRequestTimeout b tag s
  | .rdata p => Sys2Proof.Machine.execRdata p s
  | .rgnt p => Sys2Proof.Machine.execRgnt p s
  | .bdata p => Sys2Proof.Machine.execBdata p s
  | .ldata p => Sys2Proof.Machine.execLdata p s
  | .el7Land b => Sys2Proof.Machine.execEl7Land b s
  | .abort p => Sys2Proof.Machine.execAbort p s
  | .crusherSlotComplete b seq tree chunk => Sys2Proof.Machine.execCrusherSlotComplete b seq tree chunk s
  | .collComplete b seq => Sys2Proof.Machine.execCollComplete b seq s
  | .collTimeout b seq => Sys2Proof.Machine.execCollTimeout b seq s
  | .moltChunkTake b => Sys2Proof.Machine.execMoltChunkTake b s
  | .passClose b => Sys2Proof.Machine.execPassClose b s
  | .guardVerdict b => Sys2Proof.Machine.execGuardVerdict b s
  | .specDrainDone b => Sys2Proof.Machine.execSpecDrainDone b s
  | .specStallTimeout b => Sys2Proof.Machine.execSpecStallTimeout b s
  | .sqTail ring count => Sys2Proof.Machine.execSqTail ring count s
  | .cqHead ring count => Sys2Proof.Machine.execCqHead ring count s
  | .commandFetch => Sys2Proof.Machine.execCommandFetch s
  | .hostReadCompletion ring data => Sys2Proof.Machine.execHostReadCompletion ring data s
  | .hostReadTimeout ring failure => Sys2Proof.Machine.execHostReadTimeout ring failure s
  | .nop ring => Sys2Proof.Machine.execNop ring s
  | .writeCmd ring => Sys2Proof.Machine.execWriteCmd ring s
  | .readCmd ring => Sys2Proof.Machine.execReadCmd ring s
  | .code ring => Sys2Proof.Machine.execCode ring s
  | .run ring => Sys2Proof.Machine.execRun ring s
  | .signal ring => Sys2Proof.Machine.execSignal ring s
  | .timesnap ring => Sys2Proof.Machine.execTimesnap ring s
  | .sampleRequest d => Sys2Proof.Machine.execSampleRequest d s
  | .create ring => Sys2Proof.Machine.execCreate ring s
  | .assign ring => Sys2Proof.Machine.execAssign ring s
  | .start ring => Sys2Proof.Machine.execStart ring s
  | .stop ring => Sys2Proof.Machine.execStop ring s
  | .destroy ring => Sys2Proof.Machine.execDestroy ring s
  | .keyx ring => Sys2Proof.Machine.execKeyx ring s
  | .quote ring => Sys2Proof.Machine.execQuote ring s
  | .exportData ring => Sys2Proof.Machine.execExportData ring s
  | .commandComplete ring k => Sys2Proof.Machine.execCommandComplete ring k s
  | .commandTimeout ring k => Sys2Proof.Machine.execCommandTimeout ring k s
  | .cqIrqCoalesceTimer ring => Sys2Proof.Machine.execCqIrqCoalesceTimer ring s
  | .ratchet => Sys2Proof.Machine.execRatchet s
  | .ownprog => Sys2Proof.Machine.execOwnprog s
  | .ownrev => Sys2Proof.Machine.execOwnrev s
  | .retire => Sys2Proof.Machine.execRetire s
  | .colbyp => Sys2Proof.Machine.execColbyp s
  | .hbmrep => Sys2Proof.Machine.execHbmrep s
  | .pelock => Sys2Proof.Machine.execPelock s
  | .fuseProgramDone verified => Sys2Proof.Machine.execFuseProgramDone verified s
  | .inputInRange => Sys2Proof.Machine.execInputInRange s
  | .inputLost => Sys2Proof.Machine.execInputLost s
  | .perstNAssert => Sys2Proof.Machine.execPerstNAssert s
  | .perstNRelease inputStable romOk drbgOk => Sys2Proof.Machine.execPerstNRelease inputStable romOk drbgOk s
  | .hotReset => Sys2Proof.Machine.execHotReset s
  | .functionLevelReset => Sys2Proof.Machine.execFunctionLevelReset s
  | .bootBufferWrite off data whole => Sys2Proof.Machine.execBootBufferWrite off data whole s
  | .bootChunk data => Sys2Proof.Machine.execBootChunk data s
  | .chunkAccept => Sys2Proof.Machine.execChunkAccept s
  | .bootRetry data => Sys2Proof.Machine.execBootRetry data s
  | .bootStage5 => Sys2Proof.Machine.execBootStage5 s
  | .bootPolicyHandoff => Sys2Proof.Machine.execBootPolicyHandoff s
  | .bootBenchLoad failing => Sys2Proof.Machine.execBootBenchLoad failing s
  | .firmwareStartTimeout => Sys2Proof.Machine.execFirmwareStartTimeout s
  | .ready => Sys2Proof.Machine.execReady s
  | .domOn => Sys2Proof.Machine.execDomOn s
  | .domOff => Sys2Proof.Machine.execDomOff s
  | .domainSwitchDone => Sys2Proof.Machine.execDomainSwitchDone s
  | .benchReset => Sys2Proof.Machine.execBenchReset s
  | .setFreq => Sys2Proof.Machine.execSetFreq s
  | .wdArm => Sys2Proof.Machine.execWdArm s
  | .wdKick => Sys2Proof.Machine.execWdKick s
  | .faultClr => Sys2Proof.Machine.execFaultClr s
  | .watchdogExpiry => Sys2Proof.Machine.execWatchdogExpiry s
  | .inputSample volt10mV amp100mA => Sys2Proof.Machine.execInputSample volt10mV amp100mA s
  | .currentCeilingStep up => Sys2Proof.Machine.execCurrentCeilingStep up s
  | .tempSample t => Sys2Proof.Machine.execTempSample t s
  | .thermalCeilingStep x => Sys2Proof.Machine.execThermalCeilingStep x s
  | .pllRampStep b => Sys2Proof.Machine.execPllRampStep b s
  | .pllLockLost b => Sys2Proof.Machine.execPllLockLost b s
  | .pwrBrakeNAssert => Sys2Proof.Machine.execPwrBrakeNAssert s
  | .pwrBrakeNRelease => Sys2Proof.Machine.execPwrBrakeNRelease s
  | .brakeCap => Sys2Proof.Machine.execBrakeCap s
  | .brakeCapLift => Sys2Proof.Machine.execBrakeCapLift s
  | .ident => Sys2Proof.Machine.execIdent s
  | .status => Sys2Proof.Machine.execStatus s
  | .select bytes pecOk => Sys2Proof.Machine.execSelect bytes pecOk s
  | .smbRead => Sys2Proof.Machine.execSmbRead s
  | .read8 => Sys2Proof.Machine.execRead8 s
  | .extest => Sys2Proof.Machine.execExtest s
  | .samplePreload pins preload => Sys2Proof.Machine.execSamplePreload pins preload s
  | .idcode => Sys2Proof.Machine.execIdcode s
  | .clamp => Sys2Proof.Machine.execClamp s
  | .highz => Sys2Proof.Machine.execHighz s
  | .bypass code => Sys2Proof.Machine.execBypass code s
  | .trstNAssert => Sys2Proof.Machine.execTrstNAssert s
  | .pcieLinkUp x16 speed => Sys2Proof.Machine.execPcieLinkUp x16 speed s
  | .boot100MsMark => Sys2Proof.Machine.execBoot100MsMark s
  | .timesnapSampleReturn d => Sys2Proof.Machine.execTimesnapSampleReturn d s
  | .unsupportedRequest isRead => Sys2Proof.Machine.execUnsupportedRequest isRead s
  | .smbusTimeout => Sys2Proof.Machine.execSmbusTimeout s
  | .safIrqClearOnRead r => Sys2Proof.Machine.execSafIrqClearOnRead r s

end Sys2Proof.Machine
end

