-- ==== Sys2Proof/Machine/Tick.lean ====
section
/-!
DEFINITION. Time. The command table has no row for the passing of time; a step on an empty queue is a tick, in which the
panel's counters of cycles advance, a fence that waits for its Bench's work looks again whether it has ended, and blocks send the
registers that have changed. A tick is one bus cycle; the clocks of the panel have no common
base (R5, R417), so every other count gains a free number.
-/

namespace Sys2Proof.Machine

/-- A 64-bit counter of cycles in two registers, advanced (R255, R352, R428). DESIGN CHOICE: log entry 1. -/
def State.addTime (s : State) (d p lo hi n : Nat) : State :=
  let t := (s.reg d p lo).toNat + (s.reg d p hi).toNat * 2 ^ 32 + n
  (s.setReg d p lo (w32 t)).setReg d p hi (w32 (t / 2 ^ 32))

/-- The Weighbridge core is out of reset (R390, R391). -/
def State.wbgRuns (s : State) : Bool := s.domOn 44 && !s.safety.perst && !s.boot.waiting

/-- A Bench in a tick: its cycle counter, and SPC_STALL while a capacity stall stands (R324). DESIGN CHOICE: log entry 1. -/
def State.tickBench (s : State) (b : Nat) : State :=
  if !s.uncoreOn b then s
  else
    let n := Config.cyclesOfTick b s.fresh
    let s := s.updBench b (fun x => { x with cycle := (x.cycle + n) % 2 ^ 64 })
    if wbit (s.reg b 0x98 Off.stat) 18 then s.bump b 0x98 Off.spcStall n else s

/-- One tick. The watchdog's ms left fall, never to 0 here: the expiry is an event of its own (R421).
DESIGN CHOICE: log entry 1. -/
def State.tick (s : State) : State :=
  if !s.safety.inputOk then s
  else
    let k := s.fresh
    let s := (List.range 16).foldl (fun s b => s.tickBench b) s
    let s := (List.range 4).foldl (fun s q => if s.uncoreOn (16 + q) then s.addTime (16 + q) 0 Off.stkTimeLo Off.stkTimeHi (Config.cyclesOfTick (16 + q) k) else s) s
    let s := if s.wbgRuns then s.addTime 20 0 Off.wbgTimeLo Off.wbgTimeHi 1 else s
    let s := s.addTime 22 0 Off.safTimeLo Off.safTimeHi (Config.cyclesOfTick 22 k)
    let ms := (s.reg 22 0x28 Off.safWdrem).toNat
    let s := if ms ≤ 1 then s else s.setReg 22 0x28 Off.safWdrem (w32 (max 1 (ms - Config.cyclesOfTick 23 k)))
    s.draw.fenceSteps.sendChanges

end Sys2Proof.Machine
end

