-- ==== Sys2Proof/Safety.lean ====
section
/-!
DEFINITION. What claims are stated in: the canonical form of the panel's stores, what a fuse array keeps, where a core stands, and
what a next state shares with the state before it.
-/

namespace Sys2Proof.Machine

/-! ### Invariants -/

/-- The stores that hold the panel's memory, its registers and their shadows are in their canonical form, so that equal
contents are equal data. -/
def State.Canonical (s : State) : Prop :=
  Memory.wf s.mem = true ∧ smWf regReset s.regs = true ∧ smWf regReset s.shadow = true

/-- Fuse array `g` keeps what `f` holds that no event takes back: the locks, the retirements and the length of the log
(R376, R377). -/
def Fuses.Keeps (f g : Fuses) : Prop :=
  (f.dbgLock = true → g.dbgLock = true) ∧ (f.pelock = true → g.pelock = true) ∧ f.retire &&& g.retire = f.retire
    ∧ f.log.length ≤ g.log.length

/-! ### Instructions of a control core -/

/-- Core `c` runs and stands on the short form `w` (R70, R86, R90). -/
def State.Runs (s : State) (c : CoreId) (w : Word) : Prop :=
  s.running c = true ∧ s.fetch c 0 = w ∧ w.getLsbD 0 = false

/-- Core `c` runs, stands on the short form `w`, and the next instruction lies in its bank (R86). -/
def State.StandsOn (s : State) (c : CoreId) (w : Word) : Prop :=
  s.running c = true ∧ s.fetch c 0 = w ∧ w.getLsbD 0 = false ∧ (s.core (coreKey c)).pc + 4 < 0x20000

/-- The major opcode, D, A, B, PR and FN of a short form (R71). -/
abbrev opOf (w : Word) : BitVec 6 := w.extractLsb' 1 6
/-- D of a short form. -/
abbrev dOf (w : Word) : Nat := (w.extractLsb' 7 5).toNat
/-- A of a short form. -/
abbrev aOf (w : Word) : Nat := (w.extractLsb' 12 5).toNat
/-- B of a short form. -/
abbrev bOf (w : Word) : Nat := (w.extractLsb' 17 5).toNat
/-- PR of a short form. -/
abbrev prOf (w : Word) : Nat := (w.extractLsb' 22 3).toNat
/-- FN of a short form. -/
abbrev fnOf (w : Word) : BitVec 7 := w.extractLsb' 25 7
/-- IMM15 of a short form, sign-extended. -/
abbrev imm15Of (w : Word) : DWord := (w.extractLsb' 17 15).signExtend 64

/-- `t` differs from `s` in core `c` only. -/
def State.CoreOnly (s t : State) (c : CoreId) : Prop :=
  { t with cores := s.cores } = s ∧ ∀ j, j ≠ coreKey c → t.core j = s.core j

/-- `t` is `s` but for general register `d` of core `c`, which holds `v` unless it is g0, and the program counter `pc` (R67). -/
def State.WritesG (s t : State) (c : CoreId) (d : Nat) (v : DWord) (pc : Nat) : Prop :=
  s.CoreOnly t c ∧ (∀ n, t.readG c n = if n = d ∧ d ≠ 0 then v else s.readG c n)
    ∧ { t.core (coreKey c) with gpr := (s.core (coreKey c)).gpr, pc := (s.core (coreKey c)).pc } = s.core (coreKey c)
    ∧ (t.core (coreKey c)).pc = pc

/-- `t` is `s` but for the program counter of core `c`. -/
def State.MovesTo (s t : State) (c : CoreId) (pc : Nat) : Prop :=
  s.CoreOnly t c ∧ t.core (coreKey c) = { s.core (coreKey c) with pc := pc }

/-- `t` is `s` but for predicate `d` of core `c`, which holds `v` unless it is p0, and the program counter `pc` (R67). -/
def State.WritesP (s t : State) (c : CoreId) (d : Nat) (v : BitVec 256) (pc : Nat) : Prop :=
  s.CoreOnly t c ∧ (∀ n, (t.core (coreKey c)).p n = if n = d ∧ d ≠ 0 then v else (s.core (coreKey c)).p n)
    ∧ { t.core (coreKey c) with pred := (s.core (coreKey c)).pred, pc := (s.core (coreKey c)).pc } = s.core (coreKey c)
    ∧ (t.core (coreKey c)).pc = pc

/-- A precise exception of core `c` with a code and a value (R82, R83, R91): with a valid record only MULTI is set; otherwise the
record is loaded, IRQ_STAT.FLT is set where STAT.FLT rises (R22), the Face parks with cause 3, and the core stays on the instruction.
No memory changes. -/
def State.Raises (s t : State) (c : CoreId) (code val : Nat) (long : Bool) : Prop :=
  let b := coreBench c
  let u := coreUnit c
  let p := ctlPage u
  t.mem = s.mem ∧ (∀ k, (t.core k).pc = (s.core k).pc ∧ (t.core k).gpr = (s.core k).gpr) ∧
  if (s.reg b p Off.fccExc).getLsbD 16 then t = s.setFld b p Off.fccExc 18 1 1
  else
    (t.reg b p Off.fccExc).toNat = code + 0x10000 + (if long then 0x80000 else 0) + (if u = 6 then coreStrand c * 0x100000 else 0)
      ∧ (t.reg b p Off.fccExcPc).toNat = (s.core (coreKey c)).pc + (if (s.face b u).bank then 0x20000 else 0)
      ∧ (t.reg b p Off.fccExcVal).toNat = val % 2 ^ 32
      ∧ (t.reg b p Off.stat).getLsbD 2 = true ∧ (t.reg b p Off.irqStat).getLsbD 17 = true
      ∧ ((s.reg b p Off.stat).getLsbD 2 = false → (t.reg b p Off.irqStat).getLsbD 1 = true)
      ∧ (t.face b u).parked = true ∧ (t.face b u).cause = 3

/-! ### Vector instructions -/

/-- Word `j` of vector register `n` of a core (R68). -/
def State.readV (s : State) (c : CoreId) (n j : Nat) : Word := smGet (fun _ => 0) (s.core (coreKey c)).vreg (256 * n + j)

/-- The register that holds the sticky flags of a core's unit: VEC_AFLAGS of the Face, or MLT_AFLAGS (R158, R330). -/
def aflagsKey (c : CoreId) : Nat :=
  if coreUnit c = 6 then regKey (coreBench c) 0x90 Off.mltAflags else regKey (coreBench c) (0x48 + coreUnit c) Off.vecAflags

/-- Core `c` stands on the vector word `w`, no task is open, its VE is enabled, not quiesced and without windows, or on the Molt
none of the registers it names is a window (R143, R160, R315). -/
def State.VectorReady (s : State) (c : CoreId) (w : Word) (regs : List Nat) : Prop :=
  s.StandsOn c w ∧ s.taskState (coreBench c) = 0 ∧
    if coreUnit c = 6 then ∀ n ∈ regs, n < 25
    else s.en (coreBench c) (0x48 + coreUnit c) = true ∧ s.qsc (coreBench c) (0x48 + coreUnit c) = false
      ∧ (s.reg (coreBench c) (0x48 + coreUnit c) Off.vecCfg).getLsbD 0 = false

/-- What a vector instruction may touch beside its result: its core's program counter, its unit's sticky flags, and its unit's
rounding register and window wait. -/
def State.VectorFrame (s t : State) (c : CoreId) : Prop :=
  { t with cores := s.cores, regs := s.regs, faces := s.faces } = s
    ∧ (∀ j, j ≠ coreKey c → t.core j = s.core j)
    ∧ (∀ d p o, regKey d p o ≠ aflagsKey c → t.reg d p o = s.reg d p o)
    ∧ (∀ b u, { t.face b u with waitWindow := (s.face b u).waitWindow, lfsr := (s.face b u).lfsr } = s.face b u)
    ∧ (t.core (coreKey c)).pc = (s.core (coreKey c)).pc + 4

/-- A vector instruction writes the words of vD that are `some`, and no other register of its core (R68). -/
def State.WritesV (s t : State) (c : CoreId) (d : Nat) (f : Nat → Option Word) : Prop :=
  s.VectorFrame t c ∧ (∀ j < 256, t.readV c d j = (f j).getD (s.readV c d j))
    ∧ (∀ n j, j < 256 → n ≠ d → t.readV c n j = s.readV c n j)
    ∧ { t.core (coreKey c) with vreg := (s.core (coreKey c)).vreg, pc := (s.core (coreKey c)).pc } = s.core (coreKey c)

/-- A vector instruction writes general register `d` of its core. -/
def State.WritesVG (s t : State) (c : CoreId) (d : Nat) (v : DWord) : Prop :=
  s.VectorFrame t c ∧ (∀ n, t.readG c n = if n = d ∧ d ≠ 0 then v else s.readG c n)
    ∧ { t.core (coreKey c) with gpr := (s.core (coreKey c)).gpr, pc := (s.core (coreKey c)).pc } = s.core (coreKey c)

/-- A vector instruction writes predicates of its core: predicate `n` becomes `f n` where that is `some`, p0 apart. -/
def State.WritesVP (s t : State) (c : CoreId) (f : Nat → Option (BitVec 256)) : Prop :=
  s.VectorFrame t c
    ∧ (∀ n, n ≠ 0 → (t.core (coreKey c)).p n = (f n).getD ((s.core (coreKey c)).p n))
    ∧ { t.core (coreKey c) with pred := (s.core (coreKey c)).pred, pc := (s.core (coreKey c)).pc } = s.core (coreKey c)

/-! ### Long forms and units -/

/-- Core `c` runs and stands on a long form of opcode `lop` that raises no precise fault (R76, R84). -/
def State.StandsOnLong (s : State) (c : CoreId) (lop : Nat) : Prop :=
  s.running c = true ∧ (s.fetch c 0).getLsbD 0 = true ∧ lfLop (s.fetchLong c) = lop ∧ (s.core (coreKey c)).pc % 16 = 0
    ∧ (s.core (coreKey c)).pc + 16 < 0x20000 ∧ ∀ f ∈ s.longFaults c (s.fetchLong c), f.1 = false

/-- The long form of core `c` enters queue `q` with its operands (R79), and the core goes on; nothing else changes but what the core
remembers of the last stationary loads, and the number of forms that its Bench has issued. -/
def State.Enqueues (s t : State) (c : CoreId) (q : QueueId) : Prop :=
  (∀ r, (t.face (coreBench c) (coreUnit c)).queue r
      = (s.face (coreBench c) (coreUnit c)).queue r ++ if r = q then [s.entryOf c (s.fetchLong c)] else [])
    ∧ { t with faces := s.faces, cores := s.cores, benches := s.benches } = s
    ∧ (∀ d, { t.bench d with issued := (s.bench d).issued } = s.bench d)
    ∧ t.core (coreKey c) = { s.core (coreKey c) with pc := (s.core (coreKey c)).pc + 16 }
    ∧ ∀ k, k ≠ coreKey c → t.core k = s.core k

/-- The SIGNAL of a long form in the words `ws` of unit `u` is given (R98, R104): SK 1 sets a flag and SK 2 adds SINC to a counter, up
to 2^32 − 1; in token mode SK 2 pushes a token; SK 0 does nothing. -/
def State.Signals (s t : State) (b u : Nat) (ws : List Word) : Prop :=
  if s.tokenMode b u then
    (∀ q, t.tokens b u q = s.tokens b u q + if lfSk ws = 2 ∧ q = lfSix ws % 16 then 1 else 0)
  else
    (∀ i < 32, (t.face b u).flags.getLsbD i = ((s.face b u).flags.getLsbD i || decide (lfSk ws = 1 ∧ i = lfSix ws)))
      ∧ ∀ k, t.counter b u k = if lfSk ws = 2 ∧ k = lfSix ws % 16 then min 4294967295 (s.counter b u k + lfSinc ws) else s.counter b u k

/-- A ring signal `w` (KIND [1:0], IDX [6:2], INC [14:7]) acts on unit `u` in flag mode (R149). -/
def State.RingSignals (s t : State) (b u : Nat) (w : Word) : Prop :=
  (∀ i < 32, (t.face b u).flags.getLsbD i = ((s.face b u).flags.getLsbD i || decide (wfld w 0 2 = 1 ∧ i = wfld w 2 5)))
    ∧ ∀ k, t.counter b u k = if wfld w 0 2 = 2 ∧ k = wfld w 2 5 % 16 then min 4294967295 (s.counter b u k + wfld w 7 8) else s.counter b u k

/-- A remote signal `w` (KIND [9:8], IDX [14:10], INC [22:15]) acts on Face `f` in flag mode (R110). -/
def State.RemoteSignals (s t : State) (b f : Nat) (w : Word) : Prop :=
  (∀ i < 32, (t.face b f).flags.getLsbD i = ((s.face b f).flags.getLsbD i || decide (wfld w 8 2 = 1 ∧ i = wfld w 10 5)))
    ∧ ∀ k, t.counter b f k = if wfld w 8 2 = 2 ∧ k = wfld w 10 5 then min 4294967295 (s.counter b f k + wfld w 15 8) else s.counter b f k

/-! ### Register writes -/

/-- A whole write by `a` to register `o` of a page is accepted and acts at once (R27, R33, R34): no rule drops it, no check of the
page is pending, it is not in the window of an enabled page, and no earlier write to the page is on its way. -/
def State.Accepts (s : State) (a : Agent) (d p o : Nat) : Prop :=
  s.dropCode a (regKey d p o) true = none ∧ s.holdsWrite d p o = false ∧ (inWindow d p o = false ∨ (s.sh d p Off.ctl).getLsbD 0 = false)
    ∧ s.path.forwarded.all (fun w => !w.isFor d p) = true

/-- The state in which an accepted write acts: the Weighbridge has numbered it. -/
def State.numbered (s : State) : State := { s with path := { s.path with nextTag := s.path.nextTag + 1 } }

/-! ### Packets -/

/-- Packet `p` has left its die (R274, R275): it waits at the die that it names, where that is its own, or, where a route stands, at an
output port of its die, in the phase in which it leaves. -/
def State.Sends (s t : State) (p : Packet) : Prop :=
  let d := min p.sdie.toNat 20
  if d = min p.ddie.toNat 20 then p ∈ t.fabric
  else s.routed d p.ddie.toNat = true → ∃ port x, x ∈ (t.port d port).out ∧ x.cell = none ∧ { x.pkt with vc := p.vc } = p

end Sys2Proof.Machine
end

