-- ==== Sys2Proof/Certificates/Slice0/Obligations.lean ====
section
/-! DEFINITION. The statements for the provers. -/

open Sys2Proof Sys2Proof.Machine

/-! ### The machine -/

/-- A step runs the command at the front of the queue on the state with the queue's rest. -/
def Obligations.StepRunsFrontCommand : Prop :=
  ∀ (c : Instr) (rest : List Instr) (s : State), s.pending = c :: rest → step s = exec c { s with pending := rest }

/-- ALU (R72): the sixteen functions of gA and gB into gD; nothing else changes but the program counter. -/
def Obligations.AluWritesFunctionOfOperands : Prop :=
  ∀ (c : CoreId) (s : State) (w : Word), s.StandsOn c w → opOf w = 0x01 → prOf w = 0 → fnOf w < 0x10#7 →
    let a := s.readG c (aOf w)
    let b := s.readG c (bOf w)
    ∃ t v, exec (.alu c) s = .next t ∧ s.WritesG t c (dOf w) v ((s.core (coreKey c)).pc + 4)
      ∧ (fnOf w = 0x00 → v = a + b) ∧ (fnOf w = 0x01 → v = a - b) ∧ (fnOf w = 0x02 → v = a &&& b) ∧ (fnOf w = 0x03 → v = a ||| b)
      ∧ (fnOf w = 0x04 → v = a ^^^ b) ∧ (fnOf w = 0x05 → v = a <<< (b.toNat % 64)) ∧ (fnOf w = 0x06 → v = a >>> (b.toNat % 64))
      ∧ (fnOf w = 0x07 → v.toInt = a.toInt / 2 ^ (b.toNat % 64)) ∧ (fnOf w = 0x08 → v.toNat = a.toNat * b.toNat % 2 ^ 64)
      ∧ (fnOf w = 0x09 → v.toNat = a.toNat * b.toNat / 2 ^ 64) ∧ (fnOf w = 0x0A → v = if a.toInt < b.toInt then 1 else 0)
      ∧ (fnOf w = 0x0B → v = if a.toNat < b.toNat then 1 else 0) ∧ (fnOf w = 0x0C → v.toInt = min a.toInt b.toInt)
      ∧ (fnOf w = 0x0D → v.toInt = max a.toInt b.toInt) ∧ (fnOf w = 0x0E → v.toNat = min a.toNat b.toNat)
      ∧ (fnOf w = 0x0F → v.toNat = max a.toNat b.toNat)

/-- ADDI, ANDI, ORI and XORI with the signed IMM15, and SHI by a fixed amount (R71, R72). -/
def Obligations.ImmediateFormsWriteGD : Prop :=
  ∀ (c : CoreId) (s : State) (w : Word), s.StandsOn c w →
    let a := s.readG c (aOf w)
    let i := imm15Of w
    let pc := (s.core (coreKey c)).pc + 4
    let n := (w.extractLsb' 17 6).toNat
    (opOf w = 0x02 → ∃ t, exec (.addi c) s = .next t ∧ s.WritesG t c (dOf w) (a + i) pc)
      ∧ (opOf w = 0x03 → ∃ t, exec (.andi c) s = .next t ∧ s.WritesG t c (dOf w) (a &&& i) pc)
      ∧ (opOf w = 0x04 → ∃ t, exec (.ori c) s = .next t ∧ s.WritesG t c (dOf w) (a ||| i) pc)
      ∧ (opOf w = 0x05 → ∃ t, exec (.xori c) s = .next t ∧ s.WritesG t c (dOf w) (a ^^^ i) pc)
      ∧ (opOf w = 0x06 → w.extractLsb' 25 7 = 0#7 → w.extractLsb' 23 2 ≠ 3#2 → ∃ t v, exec (.shi c) s = .next t ∧ s.WritesG t c (dOf w) v pc
        ∧ (w.extractLsb' 23 2 = 0#2 → v = a <<< n) ∧ (w.extractLsb' 23 2 = 1#2 → v = a >>> n)
        ∧ (w.extractLsb' 23 2 = 2#2 → v.toInt = a.toInt / 2 ^ n))

/-- MOVW (R72): IMM16 into one halfword of gD, the other bits 0 in MODE 0 and kept in MODE 1. -/
def Obligations.MovwPlacesHalfword : Prop :=
  ∀ (c : CoreId) (s : State) (w : Word), s.StandsOn c w → opOf w = 0x07 → w.extractLsb' 14 2 < 2#2 →
    ∃ t v, exec (.movw c) s = .next t ∧ s.WritesG t c (dOf w) v ((s.core (coreKey c)).pc + 4)
      ∧ ∀ i < 64, v.getLsbD i = (if i / 16 = (w.extractLsb' 12 2).toNat then w.getLsbD (16 + i % 16)
        else (w.getLsbD 14 && (s.readG c (dOf w)).getLsbD i))

/-- LD (R72, R75): the bytes that the core reads at gA + IMM12 of its own store, zero- or sign-extended, into gD. -/
def Obligations.LoadReadsOwnStore : Prop :=
  ∀ (c : CoreId) (s : State) (w : Word), s.StandsOn c w → opOf w = 0x08 → w.extractLsb' 29 3 ≠ 7#3 →
    let u := coreUnit c
    let n := 2 ^ ((w.extractLsb' 29 3).toNat % 4)
    let a := (s.readG c (aOf w) + (w.extractLsb' 17 12).signExtend 64).toNat
    a % n = 0 → a + n ≤ storeSize u →
      ∃ t v, exec (.ld c) s = .next t ∧ s.WritesG t c (dOf w) v ((s.core (coreKey c)).pc + 4)
        ∧ (∀ k < n, v.extractLsb' (8 * k) 8 = s.byteAs (coreBench c) (agentOf u) (fsLoc (coreBench c) u (a + k)))
        ∧ ∀ i, 8 * n ≤ i → i < 64 → v.getLsbD i = (w.getLsbD 31 && v.getLsbD (8 * n - 1))

/-- ST outside a task (R72, R75): the low bytes of gS at gA + IMM12 of the core's own store; every other byte, register and core
stands. -/
def Obligations.StoreWritesOwnStoreOnly : Prop :=
  ∀ (c : CoreId) (s : State) (w : Word), s.StandsOn c w → opOf w = 0x09 → w.extractLsb' 29 3 < 4#3 →
    let u := coreUnit c
    let n := 2 ^ (w.extractLsb' 29 3).toNat
    let a := (s.readG c (aOf w) + (w.extractLsb' 17 12).signExtend 64).toNat
    let l := fsLoc (coreBench c) u a
    a % n = 0 → a + n ≤ storeSize u → s.taskState (coreBench c) = 0 →
      ∃ t, exec (.st c) s = .next t ∧ { t with mem := s.mem, cores := s.cores } = s
        ∧ (∀ k, t.byteAt k = if l ≤ k ∧ k < l + n then (s.readG c (dOf w)).extractLsb' (8 * (k - l)) 8 else s.byteAt k)
        ∧ (∀ j, t.core j = if j = coreKey c then { s.core j with pc := (s.core j).pc + 4 } else s.core j)

/-- A scalar access that is not aligned to its size raises 0x0206, and one that leaves the store 0x0205 (R75, R84). A jump
outside the bank raises 0x0204, and a JALR target that is no multiple of 4 raises 0x0203 first (R84, R86). TRAP raises exception
0x0207 with its tag in FCC_EXC_VAL (R82, R85). An opcode that R72 does not list raises 0x0201, and an unlisted function or
subop, or a non-zero PR in a scalar form, 0x0202. -/
def Obligations.PreciseExceptions : Prop :=
  (∀ (c : CoreId) (s : State) (w : Word), s.StandsOn c w →
      let n := 2 ^ ((w.extractLsb' 29 3).toNat % 4)
      let a := (s.readG c (aOf w) + (w.extractLsb' 17 12).signExtend 64).toNat
      (opOf w = 0x08 → w.extractLsb' 29 3 ≠ 7#3 →
          (a % n ≠ 0 → ∃ t, exec (.ld c) s = .next t ∧ s.Raises t c 0x0206 a false)
            ∧ (a % n = 0 → storeSize (coreUnit c) < a + n → ∃ t, exec (.ld c) s = .next t ∧ s.Raises t c 0x0205 a false))
        ∧ (opOf w = 0x09 → w.extractLsb' 29 3 < 4#3 →
          (a % n ≠ 0 → ∃ t, exec (.st c) s = .next t ∧ s.Raises t c 0x0206 a false)
            ∧ (a % n = 0 → storeSize (coreUnit c) < a + n → ∃ t, exec (.st c) s = .next t ∧ s.Raises t c 0x0205 a false)))
  ∧ (∀ (c : CoreId) (s : State) (w : Word), s.Runs c w → (s.core (coreKey c)).pc < 0x20000 →
      let jalTo := ((s.core (coreKey c)).pc : Int) + 4 * (w.extractLsb' 12 20).toInt
      let jalrTo := (s.readG c (aOf w) + imm15Of w).toNat
      (opOf w = 0x0B → jalTo < 0 ∨ 0x1FFFF < jalTo → ∃ t, exec (.jal c) s = .next t ∧ s.Raises t c 0x0204 0 false)
        ∧ (opOf w = 0x0C → jalrTo % 4 ≠ 0 → ∃ t, exec (.jalr c) s = .next t ∧ s.Raises t c 0x0203 0 false)
        ∧ (opOf w = 0x0C → jalrTo % 4 = 0 → 0x1FFFF < jalrTo → ∃ t, exec (.jalr c) s = .next t ∧ s.Raises t c 0x0204 0 false))
  ∧ (∀ (c : CoreId) (s : State) (w : Word), s.Runs c w → opOf w = 0x00 → dOf w = 2 → (s.core (coreKey c)).pc < 0x20000 →
      ∃ t, exec (.trap c) s = .next t ∧ s.Raises t c 0x0207 (w.extractLsb' 17 12).toNat false)
  ∧ (∀ (c : CoreId) (s : State) (w : Word), s.StandsOn c w →
      (opOf w = 0x0F ∨ opOf w = 0x19 ∨ 0x1A#6 < opOf w → ∃ t, exec (.alu c) s = .next t ∧ s.Raises t c 0x0201 0 false)
        ∧ (opOf w = 0x01 → prOf w ≠ 0 ∨ 0x0F#7 < fnOf w → ∃ t, exec (.alu c) s = .next t ∧ s.Raises t c 0x0202 0 false)
        ∧ (opOf w = 0x00 → 4 < dOf w → ∃ t, exec (.sysNop c) s = .next t ∧ s.Raises t c 0x0202 0 false)
        ∧ (opOf w = 0x0E → 3 < dOf w → ∃ t, exec (.fset c) s = .next t ∧ s.Raises t c 0x0202 0 false))

/-- BR, JAL and JALR (R72, R86): where the core goes on, and the link register. -/
def Obligations.BranchesAndJumps : Prop :=
  ∀ (c : CoreId) (s : State) (w : Word), s.Runs c w →
    let pc := (s.core (coreKey c)).pc
    let a := s.readG c (dOf w)
    let b := s.readG c (aOf w)
    let k := w.extractLsb' 17 3
    let holds := (k = 0 ∧ a = b) ∨ (k = 1 ∧ a ≠ b) ∨ (k = 2 ∧ a.toInt < b.toInt) ∨ (k = 3 ∧ b.toInt ≤ a.toInt)
      ∨ (k = 4 ∧ a.toNat < b.toNat) ∨ (k = 5 ∧ b.toNat ≤ a.toNat)
    let brTo := (pc : Int) + 4 * (w.extractLsb' 20 12).toInt
    let jalTo := (pc : Int) + 4 * (w.extractLsb' 12 20).toInt
    let jalrTo := (b + imm15Of w).toNat
    (opOf w = 0x0A → holds → 0 ≤ brTo → brTo ≤ 0x1FFFF → ∃ t, exec (.br c) s = .next t ∧ s.MovesTo t c brTo.toNat)
      ∧ (opOf w = 0x0A → k < 6#3 → ¬ holds → pc + 4 < 0x20000 → ∃ t, exec (.br c) s = .next t ∧ s.MovesTo t c (pc + 4))
      ∧ (opOf w = 0x0B → 0 ≤ jalTo → jalTo ≤ 0x1FFFF →
          ∃ t, exec (.jal c) s = .next t ∧ s.WritesG t c (dOf w) (BitVec.ofNat 64 (pc + 4)) jalTo.toNat)
      ∧ (opOf w = 0x0C → jalrTo % 4 = 0 → jalrTo ≤ 0x1FFFF →
          ∃ t, exec (.jalr c) s = .next t ∧ s.WritesG t c (dOf w) (BitVec.ofNat 64 (pc + 4)) jalrTo)

/-- CSR (R69, R72): the system register into gD, and an SCR register written, set or cleared by gA; no other unit, core or
memory byte changes. The system registers that every core reads (R69, R97): the bank, the cycle counter, the counters and flags
in flag mode, and SCR. -/
def Obligations.SystemRegistersReadAndWritten : Prop :=
  (∀ (c : CoreId) (s : State) (w : Word) (old : DWord), s.StandsOn c w → opOf w = 0x0D →
      let b := coreBench c
      let u := coreUnit c
      let n := (w.extractLsb' 17 12).toNat
      let act := w.extractLsb' 29 3
      let a := s.readG c (aOf w)
      s.csrValue c n = some old → act < 4#3 →
        (act = 0#3 → ∃ t, exec (.csr c) s = .next t ∧ s.WritesG t c (dOf w) old ((s.core (coreKey c)).pc + 4))
        ∧ (act ≠ 0#3 → 0x030 ≤ n → n < 0x038 → ∃ t v, exec (.csr c) s = .next t
            ∧ (act = 1#3 → v = a) ∧ (act = 2#3 → v = old ||| a) ∧ (act = 3#3 → v = old &&& ~~~ a)
            ∧ (s.updFace b u (fun f => { f with scr := smSet (fun _ => 0) f.scr (n - 0x30) v })).WritesG t c (dOf w) old
                ((s.core (coreKey c)).pc + 4)))
  ∧ (∀ (c : CoreId) (s : State) (n : Nat),
      let b := coreBench c
      let u := coreUnit c
      s.csrValue c 0x000 = some (BitVec.ofNat 64 (u + 256 * b))
        ∧ s.csrValue c 0x002 = some (BitVec.ofNat 64 (s.bench b).cycle)
        ∧ (s.tokenMode b u = false → n < 16 → s.csrValue c (0x010 + n) = some (BitVec.ofNat 64 (s.counter b u n)))
        ∧ (s.tokenMode b u = false → s.csrValue c 0x020 = some ((s.face b u).flags.setWidth 64))
        ∧ (n < 8 → s.csrValue c (0x030 + n) = some (smGet (fun _ => 0) (s.face b u).scr n)))

/-- SYNC in flag mode (R98): FSET and FCLR change one flag; CSET loads a counter; CADD adds its signed value, clamped to the
counter's range, and a clamp on a Face is recorded in BEN_DEP_SAT (R115). -/
def Obligations.SyncChangesFlagsAndCounters : Prop :=
  ∀ (c : CoreId) (s : State) (w : Word), s.StandsOn c w → opOf w = 0x0E →
    let b := coreBench c
    let u := coreUnit c
    let pc := (s.core (coreKey c)).pc + 4
    let i := (w.extractLsb' 17 5).toNat
    let k := (w.extractLsb' 17 4).toNat
    let sum := (s.counter b u k : Int) + (w.extractLsb' 21 11).toInt
    s.tokenMode b u = false →
      (dOf w = 0 → ∃ t, exec (.fset c) s = .next t ∧ (t.face b u).flags = (s.face b u).flags ||| (1#32 <<< i)
        ∧ { t with faces := s.faces, cores := s.cores } = s ∧ (t.core (coreKey c)).pc = pc)
      ∧ (dOf w = 1 → ∃ t, exec (.fclr c) s = .next t ∧ (t.face b u).flags = (s.face b u).flags &&& ~~~ (1#32 <<< i)
        ∧ { t with faces := s.faces, cores := s.cores } = s ∧ (t.core (coreKey c)).pc = pc)
      ∧ (dOf w = 2 → ∃ t, exec (.cadd c) s = .next t ∧ (t.counter b u k : Int) = max 0 (min 4294967295 sum)
        ∧ (∀ j, j ≠ k → t.counter b u j = s.counter b u j) ∧ t.mem = s.mem ∧ (t.face b u).flags = (s.face b u).flags
        ∧ (u ≠ 6 → (sum < 0 ∨ 4294967295 < sum) → (t.reg b 0 Off.benDepSat).getLsbD u = true) ∧ (t.core (coreKey c)).pc = pc)
      ∧ (dOf w = 3 → ∃ t, exec (.cset c) s = .next t ∧ t.counter b u k = (s.readG c (aOf w)).toNat % 2 ^ 32
        ∧ (∀ j, j ≠ k → t.counter b u j = s.counter b u j) ∧ { t with faces := s.faces, cores := s.cores } = s
        ∧ (t.core (coreKey c)).pc = pc)

/-- SYS NOP and FENCE only go on, and SWAP asks for the swap and holds the core where it stands (R72, R80, R89). While a started
transfer of a Hauler writes the incoming bank the swap waits; then it commits (R89): the active bank changes, the core that asked goes
on at its offset, and a Face sets FCC_IRQ_STAT.BLK.SWAP. A resume that asked for the swap ends with it, unless an exception or a
quiesce request has come meanwhile. -/
def Obligations.SystemFormsAndBankSwap : Prop :=
  (∀ (c : CoreId) (s : State) (w : Word), s.StandsOn c w → opOf w = 0x00 →
      (dOf w = 0 → ∃ t, exec (.sysNop c) s = .next t ∧ s.MovesTo t c ((s.core (coreKey c)).pc + 4))
        ∧ (dOf w = 3 → ∃ t, exec (.fence c) s = .next t ∧ s.MovesTo t c ((s.core (coreKey c)).pc + 4))
        ∧ (dOf w = 4 → ∃ t, exec (.swap c) s = .next t ∧ t.running c = false ∧ { t with faces := s.faces } = s
            ∧ (t.face (coreBench c) (coreUnit c)).swap = some ⟨(w.extractLsb' 17 15).toNat * 4, coreKey c, false⟩))
  ∧ (∀ (c : CoreId) (s : State) (q : SwapReq),
      let b := coreBench c
      let u := coreUnit c
      let into := 2 * u + (if (s.face b u).bank then 0 else 1)
      (s.face b u).swap = some q →
        ((∀ e ∈ (s.bench b).jobs, ∀ j, e.2 = some j → j.into ≠ some into) →
          ∃ t, exec (.bankSwapCommit c) s = .next t ∧ (t.face b u).bank = !(s.face b u).bank ∧ (t.face b u).swap = none ∧ t.mem = s.mem
            ∧ (q.resume = false → (t.core q.core).pc = q.pc ∧ (t.face b u).parked = (s.face b u).parked)
            ∧ (q.resume = true → t.cores = s.cores
              ∧ (s.excValid b u = false → s.qsc b (ctlPage u) = false → (t.face b u).parked = false)
              ∧ (s.excValid b u = true ∨ s.qsc b (ctlPage u) = true → (t.face b u).parked = (s.face b u).parked))
            ∧ (u ≠ 6 → (t.reg b (ctlPage u) Off.irqStat).getLsbD 19 = true))
        ∧ (∀ k j, (k, some j) ∈ (s.bench b).jobs → j.into = some into → exec (.bankSwapCommit c) s = .next s))

/-- PARK (R91): a Face stops with CAUSE 1 and its tag, at the next instruction, and IRQ_STAT.BLK.PARK is set; a strand stops,
and the Molt parks with its last strand (R313). A resume of the Molt without RPC lets each strand go on where it stands (R93, R314; for
the strands beside the first the model's choice, DEDUCED, log entry 26). -/
def Obligations.ParkStopsAtNextInstruction : Prop :=
  (∀ (c : CoreId) (s : State) (w : Word), s.StandsOn c w → opOf w = 0x00 → dOf w = 1 →
    let b := coreBench c
    let u := coreUnit c
    ∃ t, exec (.park c) s = .next t ∧ (t.face b u).tag = (w.extractLsb' 17 12).toNat ∧ t.mem = s.mem ∧ t.running c = false
      ∧ (t.core (coreKey c)).pc = (s.core (coreKey c)).pc + 4 ∧ (t.reg b (ctlPage u) Off.irqStat).getLsbD 16 = true
      ∧ (u ≠ 6 → (t.face b u).parked = true ∧ (t.face b u).cause = 1)
      ∧ (u = 6 → (∀ k ∈ s.coreKeys b u, k ≠ coreKey c → (s.core k).stopped = true) → (t.face b u).parked = true ∧ (t.face b u).cause = 1))
  ∧ ∀ (w : PageWrite) (s : State),
    let d := w.page.die.val
    let p := w.page.page.val
    pageKind d p = some .mlt → s.Accepts w.agent d p Off.fccResume → w.data.getLsbD 0 = true → w.data.getLsbD 1 = false →
      (s.face d 6).parked = true → s.excValid d 6 = false → (s.face d 6).swap = none → s.qsc d p = false →
        ∃ t, exec (.fccResume w) s = .next t ∧ ∀ k ∈ s.coreKeys d 6, (t.core k).pc = (s.core k).pc ∧ (t.core k).stopped = false

/-- PRED (R72): the functions of predicates, counts into gD, and PSETN. On a Face it is a vector instruction (R150): with the VE disabled
it raises 0x0513, and under quiesce of the VE it waits (R160). -/
def Obligations.PredicateFunctions : Prop :=
  ∀ (c : CoreId) (s : State) (w : Word), s.StandsOn c w → opOf w = 0x1A → prOf w = 0 → bOf w < 8 →
    let k := s.core (coreKey c)
    let a := k.p (aOf w)
    let b := k.p (bOf w)
    let pc := k.pc + 4
    let vec := 0x48 + coreUnit c
    (coreUnit c ≠ 6 → s.en (coreBench c) vec = false → aOf w < 8 → dOf w < 8 → fnOf w < 8#7 →
        ∃ t, exec (.pred c) s = .next t ∧ s.Raises t c 0x0513 0 false)
    ∧ (coreUnit c ≠ 6 → s.en (coreBench c) vec = true → s.qsc (coreBench c) vec = true → aOf w < 8 → dOf w < 8 → fnOf w < 8#7 →
        exec (.pred c) s = .next s)
    ∧ ((coreUnit c ≠ 6 → s.en (coreBench c) vec = true ∧ s.qsc (coreBench c) vec = false) →
    (aOf w < 8 → dOf w < 8 → fnOf w < 5#7 → ∃ t v, exec (.pred c) s = .next t ∧ s.WritesP t c (dOf w) v pc
        ∧ (fnOf w = 0 → v = a &&& b) ∧ (fnOf w = 1 → v = a ||| b) ∧ (fnOf w = 2 → v = a ^^^ b) ∧ (fnOf w = 3 → v = a &&& ~~~ b)
        ∧ (fnOf w = 4 → v = ~~~ a))
      ∧ (aOf w < 8 → fnOf w = 5 → ∃ t v, exec (.pred c) s = .next t ∧ s.WritesG t c (dOf w) v pc
          ∧ v.toNat = (List.range 256).countP (fun i => a.getLsbD i))
      ∧ (aOf w < 8 → fnOf w = 6 → ∃ t v, exec (.pred c) s = .next t ∧ s.WritesG t c (dOf w) v pc
          ∧ (∀ i < v.toNat, a.getLsbD i = false) ∧ (v.toNat = 256 ∨ (v.toNat < 256 ∧ a.getLsbD v.toNat = true)))
      ∧ (dOf w < 8 → fnOf w = 7 → ∃ t v, exec (.pred c) s = .next t ∧ s.WritesP t c (dOf w) v pc
          ∧ ∀ i < 256, v.getLsbD i = decide (i < (s.readG c (aOf w)).toNat)))

/-- VI32 (R72): the INT32 functions in the words that PR selects; the other words, registers and memory stand. -/
def Obligations.VectorIntegerLanes : Prop :=
  ∀ (c : CoreId) (s : State) (w : Word), s.VectorReady c w [dOf w, aOf w, bOf w] → opOf w = 0x13 → fnOf w < 0x0D#7 →
    let a := s.readV c (aOf w)
    let b := s.readV c (bOf w)
    ∃ (t : State) (v : Nat → Word), exec (.vi32 c) s = .next t
      ∧ s.WritesV t c (dOf w) (fun j => if ((s.core (coreKey c)).p (prOf w)).getLsbD j then some (v j) else none)
      ∧ ∀ j < 256, (fnOf w = 0 → v j = a j + b j) ∧ (fnOf w = 1 → v j = a j - b j) ∧ (fnOf w = 2 → v j = a j * b j)
        ∧ (fnOf w = 3 → v j = a j &&& b j) ∧ (fnOf w = 4 → v j = a j ||| b j) ∧ (fnOf w = 5 → v j = a j ^^^ b j)
        ∧ (fnOf w = 6 → v j = a j <<< ((b j).toNat % 32)) ∧ (fnOf w = 7 → v j = a j >>> ((b j).toNat % 32))
        ∧ (fnOf w = 8 → (v j).toInt = (a j).toInt / 2 ^ ((b j).toNat % 32)) ∧ (fnOf w = 9 → (v j).toInt = min (a j).toInt (b j).toInt)
        ∧ (fnOf w = 10 → (v j).toInt = max (a j).toInt (b j).toInt) ∧ (fnOf w = 11 → (v j).toNat = min (a j).toNat (b j).toNat)
        ∧ (fnOf w = 12 → (v j).toNat = max (a j).toNat (b j).toNat)

/-- VF32, VBF16 and VFP16 without stochastic rounding (R48, R72): each selected lane takes the lane function of its operands; a
lane of VF32 ADD, SUB or MUL with a NaN operand holds the canonical NaN. -/
def Obligations.VectorFloatLanes : Prop :=
  ∀ (c : CoreId) (s : State) (w : Word), s.VectorReady c w [dOf w, aOf w, bOf w] →
    let pr := (s.core (coreKey c)).p (prOf w)
    let d := s.readV c (dOf w)
    let a := s.readV c (aOf w)
    let b := s.readV c (bOf w)
    let rnd := (w.extractLsb' 29 2).toNat
    let fn := (w.extractLsb' 25 4).toNat
    let lane16 := fun (l : FLayout) (j : Nat) =>
      let f := fun (lo : Nat) => (f16Lane l fn (Rnd.ofCode rnd) (w.getLsbD 31) 0 ((d j).extractLsb' lo 16).toNat
        ((a j).extractLsb' lo 16).toNat ((b j).extractLsb' lo 16).toNat).1
      ofHalves (f 0) (f 16)
    (opOf w = 0x10 → fnOf w < 0x0C#7 → ∃ (t : State) (v : Nat → Word), exec (.vf32 c) s = .next t
        ∧ s.WritesV t c (dOf w) (fun j => if pr.getLsbD j then some (v j) else none)
        ∧ ∀ j < 256, v j = (f32Lane (fnOf w).toNat (d j) (a j) (b j)).1
          ∧ (fnOf w < 3#7 → of32 (a j) = .nan ∨ of32 (b j) = .nan → v j = 0x7FC00000))
      ∧ (opOf w = 0x11 → fn < 8 → rnd ≠ 1 → rnd ≠ 3 → ∃ t, exec (.vbf16 c) s = .next t
        ∧ s.WritesV t c (dOf w) (fun j => if pr.getLsbD j then some (lane16 lay16b j) else none))
      ∧ (opOf w = 0x12 → fn < 8 → rnd ≠ 1 → rnd ≠ 3 → ∃ t, exec (.vfp16 c) s = .next t
        ∧ s.WritesV t c (dOf w) (fun j => if pr.getLsbD j then some (lane16 lay16h j) else none))

/-- VCVT from FP32 and BF16 to FP32 and to INT32 under nearest-even (R448), and the function tables VTABF and VTABD (R152,
R153). A Molt strand has no tables (0x0C01, R314), and its formats are FP32, BF16 and the first part of SPL32 (0x0101, R47). -/
def Obligations.VectorConversionsAndTables : Prop :=
  ∀ (c : CoreId) (s : State) (w : Word), s.VectorReady c w [dOf w, aOf w] →
    let pr := (s.core (coreKey c)).p (prOf w)
    let b := coreBench c
    let u := coreUnit c
    let a := s.readV c (aOf w)
    let tab := fun (d j : Nat) => (tableEval (fun off => s.tableWord b u (128 * bOf w + 0x40 * d + off))
      (fun i => s.tableWord b u (0x400 + 0x8000 * bOf w + 0x4000 * d + 4 * i)) (a j)).1
    (opOf w = 0x15 → bOf w = 0 → fnOf w = 0 → ∃ t, exec (.vcvt c) s = .next t
        ∧ s.WritesV t c (dOf w) (fun j => if pr.getLsbD j then some (to32 (of32 (a j))).1 else none))
      ∧ (opOf w = 0x15 → bOf w = 1 → fnOf w = 0 → ∃ t, exec (.vcvt c) s = .next t
        ∧ s.WritesV t c (dOf w) (fun j => if pr.getLsbD j
            then some (to32 (decodeFloat lay16b ((a (j / 2)).extractLsb' (16 * (j % 2)) 16).toNat)).1 else none))
      ∧ (u = 6 → opOf w = 0x15 → bOf w = 0 → fnOf w = 0x0E → ∃ t, exec (.vcvt c) s = .next t ∧ s.Raises t c 0x0101 0 false)
      ∧ (u ≠ 6 → opOf w = 0x15 → bOf w = 0 → fnOf w = 0x0E → ∃ t, exec (.vcvt c) s = .next t
        ∧ s.WritesV t c (dOf w) (fun j => if pr.getLsbD j then some (w32 (toInt 32 .nearest 0 (of32 (a j))).1) else none))
      ∧ (u ≠ 6 → bOf w < 8 → opOf w = 0x10 → fnOf w = 0x20 → ∃ t, exec (.vtabf c) s = .next t
        ∧ s.WritesV t c (dOf w) (fun j => if pr.getLsbD j then some (tab 0 j) else none))
      ∧ (u ≠ 6 → bOf w < 8 → opOf w = 0x10 → fnOf w = 0x21 → ∃ t, exec (.vtabd c) s = .next t
        ∧ s.WritesV t c (dOf w) (fun j => if pr.getLsbD j then some (tab 1 j) else none))
      ∧ (u = 6 → opOf w = 0x10 → fnOf w = 0x20 → ∃ t, exec (.vtabf c) s = .next t ∧ s.Raises t c 0x0C01 0 false)

/-- VCOMPRESS, VEXPAND, VBCAST and VIOTA (R72, R155): which words of vD are written, and with what. VMOVG and VSUMMARY (R72,
R156): one word, or a summary of the selected words, into gD. -/
def Obligations.VectorPermutationsAndSummaries : Prop :=
  (∀ (c : CoreId) (s : State) (w : Word), s.VectorReady c w [dOf w] → opOf w = 0x18 →
      let pr := (s.core (coreKey c)).p (prOf w)
      let a := s.readV c (aOf w)
      let sel := (List.range 256).filter (fun j => pr.getLsbD j)
      (fnOf w = 0 → bOf w = 0 → (coreUnit c = 6 → aOf w < 25) → ∃ t, exec (.vcompress c) s = .next t ∧ s.WritesV t c (dOf w) (fun j => sel[j]?.map a))
        ∧ (fnOf w = 1 → bOf w = 0 → (coreUnit c = 6 → aOf w < 25) → ∃ t, exec (.vexpand c) s = .next t
            ∧ s.WritesV t c (dOf w) (fun j => if pr.getLsbD j then some (a ((List.range j).countP (fun i => pr.getLsbD i))) else none))
        ∧ (fnOf w = 2 → ∃ t, exec (.vbcast c) s = .next t
            ∧ s.WritesV t c (dOf w) (fun j => if pr.getLsbD j then some ((s.readG c (aOf w)).setWidth 32) else none))
        ∧ (fnOf w = 5 → ∃ t, exec (.viota c) s = .next t
            ∧ s.WritesV t c (dOf w) (fun j => if pr.getLsbD j then some (BitVec.ofNat 32 j) else none)))
  ∧ (∀ (c : CoreId) (s : State) (w : Word), s.VectorReady c w [aOf w] → opOf w = 0x18 →
      let pr := (s.core (coreKey c)).p (prOf w)
      let a := s.readV c (aOf w)
      let sel := (List.range 256).filter (fun j => pr.getLsbD j)
      (fnOf w = 3 → ∃ t, exec (.vmovg c) s = .next t
          ∧ s.WritesVG t c (dOf w) ((a ((s.readG c (bOf w)).toNat % 256)).setWidth 64))
        ∧ (fnOf w = 4 → bOf w < 8 → ∃ t v, exec (.vsummary c) s = .next t ∧ s.WritesVG t c (dOf w) v
            ∧ (bOf w = 0 → v = if sel.any (fun j => (of32 (a j)).nonFinite) then 1 else 0)
            ∧ (bOf w = 3 → v.toNat = sel.countP (fun j => a j != 0#32 && a j != 0x80000000#32))
            ∧ (bOf w = 4 → v.toInt = sel.foldl (fun m j => max m (a j).toInt) (-2147483648))
            ∧ (bOf w = 5 → v.toInt = sel.foldl (fun m j => min m (a j).toInt) 2147483647)
            ∧ (bOf w = 6 → v.toInt = (sel.map (fun j => (a j).toInt)).sum)))

/-- VCMP (R72, R73): the comparison bits of INT32 and FP32 lanes in one predicate, those of 16-bit lanes in a pair; unselected
bits stand. -/
def Obligations.VectorComparisons : Prop :=
  ∀ (c : CoreId) (s : State) (w : Word), s.VectorReady c w [aOf w, bOf w] → opOf w = 0x14 → fnOf w < 0x20#7 →
    let core := s.core (coreKey c)
    let pr := core.p (prOf w)
    let d := dOf w
    let k := (w.extractLsb' 25 3).toNat
    let lanes := w.extractLsb' 28 2
    let a := s.readV c (aOf w)
    let b := s.readV c (bOf w)
    let half := fun (l : FLayout) (x : Word) (lo : Nat) => decodeFloat l (x.extractLsb' lo 16).toNat
    let bits := fun (n : Nat) (p : BitVec 256) (f : Nat → Bool) =>
      ∀ j < 256, p.getLsbD j = if pr.getLsbD j then f j else (core.p n).getLsbD j
    k < 7 →
      (lanes = 3#2 → 0 < d → d < 8 → ∃ t p, exec (.vcmp c) s = .next t ∧ s.WritesVP t c (fun n => if n = d then some p else none)
          ∧ (k = 0 → bits d p (fun j => a j == b j)) ∧ (k = 1 → bits d p (fun j => a j != b j))
          ∧ (k = 2 → bits d p (fun j => decide ((a j).toInt < (b j).toInt))) ∧ (k = 3 → bits d p (fun j => decide ((a j).toInt ≤ (b j).toInt)))
          ∧ (k = 4 → bits d p (fun j => decide ((b j).toInt < (a j).toInt))) ∧ (k = 5 → bits d p (fun j => decide ((b j).toInt ≤ (a j).toInt))))
      ∧ (lanes = 0#2 → 0 < d → d < 8 → ∃ t p, exec (.vcmp c) s = .next t ∧ s.WritesVP t c (fun n => if n = d then some p else none)
          ∧ bits d p (fun j => numCmp k (of32 (a j)) (of32 (b j))))
      ∧ (∀ l, (lanes = 1#2 ∧ l = lay16b) ∨ (lanes = 2#2 ∧ l = lay16h) → d = 2 ∨ d = 4 ∨ d = 6 → ∃ t p q, exec (.vcmp c) s = .next t
          ∧ s.WritesVP t c (fun n => if n = d then some p else if n = d + 1 then some q else none)
          ∧ bits d p (fun j => numCmp k (half l (a j) 0) (half l (b j) 0))
          ∧ bits (d + 1) q (fun j => numCmp k (half l (a j) 16) (half l (b j) 16)))

/-- VLD of words and of BF16, and VST (R74, R75): what is read and widened, and which bytes of the Face store change. -/
def Obligations.VectorLoadsAndStores : Prop :=
  ∀ (c : CoreId) (s : State) (w : Word), s.VectorReady c w [dOf w] →
    let pr := (s.core (coreKey c)).p (prOf w)
    let u := coreUnit c
    let l := fsLoc (coreBench c) u
    let x := (s.readG c (aOf w) + s.readG c (bOf w)).toNat
    (opOf w = 0x16 → fnOf w = 0x00 ∨ (fnOf w = 0x0E ∧ u ≠ 6) → x % 4 = 0 → x + 1024 ≤ storeSize u → ∃ (t : State) (v : Nat → Word), exec (.vld c) s = .next t
        ∧ s.WritesV t c (dOf w) (fun j => if pr.getLsbD j then some (v j) else none)
        ∧ ∀ j < 256, ∀ k < 4, (v j).extractLsb' (8 * k) 8 = s.byteAt (l (x + 4 * j + k)))
      ∧ (opOf w = 0x16 → fnOf w = 0x01 → x % 2 = 0 → x + 512 ≤ storeSize u → ∃ t, exec (.vld c) s = .next t
        ∧ s.WritesV t c (dOf w) (fun j => if pr.getLsbD j
            then some (to32 (decodeFloat lay16b (leNat (s.bytesAt (l (x + 2 * j)) 2)))).1 else none))
      ∧ (opOf w = 0x17 → fnOf w = 0x00 → x % 4 = 0 → x + 1024 ≤ storeSize u → ∃ t, exec (.vst c) s = .next t
        ∧ (∀ j, j ≠ coreKey c → t.core j = s.core j)
        ∧ t.core (coreKey c) = { s.core (coreKey c) with pc := (s.core (coreKey c)).pc + 4 }
        ∧ (∀ m, t.byteAt m = if l x ≤ m ∧ m < l x + 1024 ∧ pr.getLsbD ((m - l x) / 4)
            then (s.readV c (dOf w) ((m - l x) / 4)).extractLsb' (8 * ((m - l x) % 4)) 8 else s.byteAt m))

/-- With the windows on, a vector instruction that reads v31 while no tile waits does not issue, and with a tile it takes the
next chunk: dead words read +0, and the eighth pop frees the entry (R143, R144). -/
def Obligations.TilePopFeedsInstruction : Prop :=
  ∀ (b : BenchId) (f : Fin 6) (s : State) (w : Word),
    let c := CoreId.face b f
    let p := 0x48 + f.val
    s.StandsOn c w → opOf w = 0x13 → fnOf w = 0x00 → aOf w = 31 → bOf w = 0 → dOf w = 1 → prOf w = 0 →
    s.taskState b = 0 → s.en b p = true → s.qsc b p = false → (s.reg b p Off.vecCfg).extractLsb' 0 4 = 1#4 →
    (s.reg b p Off.vecSring).extractLsb' 24 8 = 0#8 →
      ((s.face b f).tileQ = [] → ∃ t, exec (.vi32 c) s = .next t ∧ { t with faces := s.faces } = s
          ∧ t.face b f = { s.face b f with waitWindow := 1 })
      ∧ (∀ tile rest, (s.face b f).tileQ = tile :: rest → ∃ t, exec (.vi32 c) s = .next t
          ∧ (∀ j < 256, t.readV c 1 j = (if tile.liveWord (s.face b f).popped j then tile.vals.getD (256 * (s.face b f).popped + j) 0 else 0)
              + s.readV c 0 j)
          ∧ ((s.face b f).popped < 7 → (t.face b f).popped = (s.face b f).popped + 1 ∧ (t.face b f).tileQ = tile :: rest)
          ∧ ((s.face b f).popped = 7 → (t.face b f).popped = 0 ∧ (t.face b f).tileQ = rest ∧ (t.face b f).tilesOut = (s.face b f).tilesOut + 1))

/-! ### Long forms and the units of a Face -/

/-- Every long form but LSYNC enters its queue with its words and operands, and the core goes on (R78, R79); while that queue
holds sixteen entries the core stalls. -/
def Obligations.LongFormsEnterQueue : Prop :=
  ∀ (c : CoreId) (s : State) (x : Instr) (lop : Nat) (q : QueueId), s.StandsOnLong c lop →
    let m := lfImm (s.fetchLong c) % 4
    ((x, lop, q) ∈ [(.mma c, 0x01, .slab), (.mmaAcc c, 0x02, .slab), (.tileLoadStationary c, 0x03, .slab), (.tileDrain c, 0x04, .slab),
        (.chuteMv c, 0x05, .chute), (.haul c, 0x08, .hauler), (.wmerge c, 0x0D, .weevil), (.wsegred c, 0x0E, .weevil),
        (.wroute c, 0x0F, .weevil), (.coll c, 0x10, .coll), (.taskBegin c, 0x14, .task), (.taskEnd c, 0x15, .task)]
      ∨ lop = 0x0C ∧ q = .weevil ∧ (x = .wgatherRows c ∧ m = 0 ∨ x = .wgatherExpand c ∧ m = 1 ∨ x = .wgatherPack c ∧ m = 2)) →
    (((s.face (coreBench c) (coreUnit c)).queue q).length < 16 → ∃ t, exec x s = .next t ∧ s.Enqueues t c q)
      ∧ (16 ≤ ((s.face (coreBench c) (coreUnit c)).queue q).length → exec x s = .next s)

/-- LSYNC holds the core (R79) until its WAIT is satisfied; then its SIGNAL is given and the core goes on 16 bytes further
(R103). In token mode it takes one token and pushes one (R104), and it leaves the last token of a queue to the head of a unit queue
that is ready to pop it (R105). -/
def Obligations.LsyncHoldsAndReleases : Prop :=
  ∀ (c : CoreId) (s : State),
    let b := coreBench c
    let u := coreUnit c
    let k := s.core (coreKey c)
    let ws := s.fetchLong c
    (s.StandsOnLong c 0x18 → ∃ t, exec (.lsync c) s = .next t ∧ s.CoreOnly t c ∧ t.core (coreKey c) = { k with holding := true })
      ∧ (k.holding = true → k.popped = false → s.waitOk b u ws = false → exec (.lsyncRelease c) s = .next s)
      ∧ (k.holding = true → (s.face b u).parked = false → s.tokenMode b u = false → s.waitOk b u ws = true →
          ∃ t, exec (.lsyncRelease c) s = .next t ∧ s.Signals t b u ws ∧ t.mem = s.mem
            ∧ t.core (coreKey c) = { k with holding := false, popped := false, pc := k.pc + 16 } ∧ ∀ j, j ≠ coreKey c → t.core j = s.core j)
      ∧ (k.holding = true → (s.face b u).parked = false → s.tokenMode b u = true → k.popped = false → lfWc ws = true → lfSk ws = 2 →
          lfSix ws % 16 ≠ lfWcn ws → (2 ≤ s.tokens b u (lfWcn ws) ∨ (s.tokens b u (lfWcn ws) = 1 ∧ (s.face b u).queuesEmpty = true)) →
          s.tokens b u (lfSix ws % 16) < 1024 → ∃ t, exec (.lsyncRelease c) s = .next t ∧ { t with faces := s.faces, cores := s.cores } = s
            ∧ t.tokens b u (lfWcn ws) + 1 = s.tokens b u (lfWcn ws) ∧ t.tokens b u (lfSix ws % 16) = s.tokens b u (lfSix ws % 16) + 1
            ∧ t.core (coreKey c) = { k with holding := false, popped := false, pc := k.pc + 16 })
      ∧ (∀ q e rest, k.holding = true → s.tokenMode b u = true → k.popped = false → lfWc ws = true → s.tokens b u (lfWcn ws) = 1 →
          (s.face b u).queue q = e :: rest → s.headReady b u q = true → lfWc e.words = true → lfWcn e.words = lfWcn ws →
          exec (.lsyncRelease c) s = .next s)

/-- A queue head whose WAIT is satisfied starts (R79, R127, R141): a stationary load, a streaming operation, which counts its port
advances in SLB_STRM of every Slab that takes part (R136; that it does so at its start is DESIGN CHOICE, log entry 112), and a Chute
operation leave their queue and run; no memory and no Slab changes before they read. In token mode a head leaves the last token of a
queue to a head of a unit queue of higher rank (R105). -/
def Obligations.QueueHeadStarts : Prop :=
  ∀ (u : UnitId) (s : State) (e : QEntry) (rest : List QEntry),
    let b := u.bench.val
    let f := u.unit.val
    (s.tokenMode b f = false → s.waitOk b f e.words = true →
      ((s.face b f).qSlab = e :: rest → s.slabReady b f e = true → (∀ k ∈ slabMask e, s.slabOff b f k = false) →
        (lfLop e.words = 0x03 → ∃ t op, exec (.queueEntryStart u .slab []) s = .next t ∧ { t with faces := s.faces, fresh := s.fresh } = s
            ∧ (t.face b f).qSlab = rest ∧ (t.face b f).loads = (s.face b f).loads ++ [op] ∧ op.entry = e ∧ op.slabs = slabMask e
            ∧ op.failed = false ∧ op.ended = false)
          ∧ (lfLop e.words = 0x01 ∨ lfLop e.words = 0x02 → ∃ t op, exec (.queueEntryStart u .slab []) s = .next t
            ∧ { t with faces := s.faces, fresh := s.fresh, regs := s.regs } = s ∧ (t.face b f).qSlab = rest
            ∧ (t.face b f).streams = (s.face b f).streams ++ [op] ∧ op.entry = e ∧ op.slabs = slabMask e ∧ op.failed = false ∧ op.ended = false
            ∧ ∀ k ∈ slabMask e, t.reg b (0x20 + 4 * f + k) Off.slbStrm = satAdd (s.reg b (0x20 + 4 * f + k) Off.slbStrm) e.gb.toNat))
        ∧ ((s.face b f).qChute = e :: rest → (∀ o ∈ (s.face b f).chute, o.ended = false) → s.en b (0x40 + f) = true → s.qsc b (0x40 + f) = false →
          ∃ t op, exec (.queueEntryStart u .chute []) s = .next t ∧ { t with faces := s.faces, fresh := s.fresh } = s ∧ (t.face b f).qChute = rest
            ∧ (t.face b f).chute = (s.face b f).chute ++ [op] ∧ op.entry = e ∧ op.failed = false ∧ op.ended = false))
      ∧ (∀ o os, s.tokenMode b f = true → (s.face b f).qChute = e :: rest → (s.face b f).qSlab = o :: os → s.slabReady b f o = true →
          lfWc e.words = true → lfWc o.words = true → lfWcn o.words = lfWcn e.words → s.tokens b f (lfWcn e.words) = 1 →
          exec (.queueEntryStart u .chute []) s = .next s)

/-- Loads, streaming operations and drains of the Slabs complete, and tiles enter their queue (R126, R127, R143, R144): a load's
banks have the format and the rows that it gives them (R121, R122) and are valid, a streaming operation sets the live-row count of
every slot tile that it writes (R122), the sticky flags and the stores are visible, the unit is free, and the SIGNAL is given. -/
def Obligations.SlabOperationsComplete : Prop :=
  ∀ (u : UnitId) (s : State) (op : RunOp) (k : Nat),
    let b := u.bench.val
    let f := u.unit.val
    let x := s.face b f
    let imm := lfImm op.entry.words
    op.ended = false → op.failed = false → s.tokenMode b f = false →
      (x.loads[k]? = some op → ∃ t, exec (.slabLoadComplete u k) s = .next t ∧ (t.face b f).loads = x.loads.eraseIdx k
          ∧ s.Signals t b f op.entry.words ∧ t.mem = s.mem
          ∧ (∀ i ∈ op.slabs, ((t.slab b (4 * f + i)).bank (entryBank op.entry)).valid = true) ∧ (∀ i, (t.slab b i).acc = (s.slab b i).acc)
          ∧ (op.src ≠ none → ∀ r ∈ splitRows (s.cols b f) (slabMask op.entry) (tlNrt imm) 0, r.1 ∈ op.slabs →
            ((t.slab b (4 * f + r.1)).bank (entryBank op.entry)).fmt = fld (lfWord op.entry.words 3) 5 4
              ∧ ((t.slab b (4 * f + r.1)).bank (entryBank op.entry)).rows = r.2.2))
      ∧ (x.streams.head? = some op → ∃ t, exec (.slabStreamComplete u) s = .next t ∧ (t.face b f).streams = x.streams.tail
          ∧ s.Signals t b f op.entry.words ∧ t.mem = s.mem
          ∧ (∀ i, (t.slab b i).bank0 = (s.slab b i).bank0 ∧ (t.slab b i).bank1 = (s.slab b i).bank1)
          ∧ (op.src ≠ none → ∀ i ∈ op.slabs, ∀ q < 32, op.entry.gc.toNat / 16 ≤ q → q ≤ (op.entry.gc.toNat + op.entry.gb.toNat - 1) / 16 →
            smGet (fun _ => 0) (t.slab b (4 * f + i)).live q = ((s.slab b (4 * f + i)).bank (entryBank op.entry)).rows)
          ∧ (f ≠ 6 → op.src = none → t.reg b (0x48 + f) Off.vecAflags = s.reg b (0x48 + f) Off.vecAflags ||| w32 (aflagsOf (op.tally.headD 0)).mask))
      ∧ (∀ tile ts, x.drain = some op → op.tiles = tile :: ts → x.tileQ.length < 8 → ∃ t, exec (.tileEnterQueue u) s = .next t
          ∧ { t with faces := s.faces } = s ∧ t.face b f = { x with tileQ := x.tileQ ++ [tile], drain := some { op with tiles := ts } })
      ∧ (x.drain = some op → (nbit imm 6 = true → op.tiles = [] ∧ x.tileQ = []) → (nbit imm 7 = true → x.sieveD = none) →
          s.storeStalls b f op.writes = false → ∃ t, exec (.tileDrainComplete u) s = .next t ∧ (t.face b f).drain = none
          ∧ s.Signals t b f op.entry.words ∧ t.mem = (s.storesAs b f op.writes).mem)

/-- CHUTE_MV, the Weevil operations and WROUTE complete (R141, R180, R197): the results of the oldest operation become visible, it is
counted, a WGATHER that packs leaves its count in WEV_LAST, the unit is free of it, and the SIGNAL is given. -/
def Obligations.ChuteAndWeevilComplete : Prop :=
  ∀ (u : UnitId) (s : State) (op : RunOp),
    let b := u.bench.val
    let f := u.unit.val
    op.ended = false → s.tokenMode b f = false →
      (∀ rest, (s.face b f).chute = op :: rest → s.storeStalls b f (s.chuteStores b f op).1 = false → ∃ t, exec (.chuteComplete u) s = .next t
          ∧ (t.face b f).chute = rest ∧ s.Signals t b f op.entry.words ∧ t.mem = (s.storesAs b f (s.chuteStores b f op).1).mem
          ∧ t.reg b (0x40 + f) Off.chuOps = satAdd (s.reg b (0x40 + f) Off.chuOps) 1)
      ∧ ((s.face b f).weevil = some op → s.storeStalls b f op.writes = false → lfLop op.entry.words ≠ 0x0F →
          ∃ t, exec (.weevilOpComplete u) s = .next t ∧ (t.face b f).weevil = none ∧ s.Signals t b f op.entry.words
          ∧ t.mem = (s.storesAs b f op.writes).mem ∧ t.reg b (0x50 + f) Off.wevOps = satAdd (s.reg b (0x50 + f) Off.wevOps) 1
          ∧ (lfLop op.entry.words = 0x0C → lfImm op.entry.words % 4 = 2 → t.reg b (0x50 + f) Off.wevLast = w32 (op.tally.headD 0)))
      ∧ ((s.face b f).weevil = some op → s.storeStalls b f op.writes = false → lfLop op.entry.words = 0x0F →
          ∃ t, exec (.wrouteComplete u) s = .next t ∧ (t.face b f).weevil = none ∧ s.Signals t b f op.entry.words
          ∧ t.mem = (s.storesAs b f op.writes).mem ∧ t.reg b (0x50 + f) Off.wevOps = satAdd (s.reg b (0x50 + f) Off.wevOps) 1
          ∧ t.reg b (0x50 + f) Off.wevDropCnt = satAdd (s.reg b (0x50 + f) Off.wevDropCnt) (op.tally.getD 0 0)
          ∧ t.reg b (0x50 + f) Off.wevOvfCnt = satAdd (s.reg b (0x50 + f) Off.wevOvfCnt) (op.tally.getD 1 0)
          ∧ t.reg b (0x50 + f) Off.wevRtProbes = w32 (op.tally.getD 2 0))

/-- The Sieve closes a tensor that no other agent has written into (R170): its last form is stored and counted, and the channel
is free. A ring slot completes and its ring signal is given (R149); one that waited pushes its tokens once there is room. -/
def Obligations.SieveAndRingsComplete : Prop :=
  ∀ (u : UnitId) (s : State),
    let b := u.bench.val
    let f := u.unit.val
    let x := s.face b f
    let p := 0x48 + f
    (∀ tensor, x.sieveD = some tensor → tensor.closing = true → s.tensorBytes b f tensor.hdr tensor.head = tensor.before → s.taskState b = 0 →
        ∃ t, exec (.sieveTensorClose u .d) s = .next t ∧ (t.face b f).sieveD = none ∧ (t.face b f).sieveV = x.sieveV
          ∧ t.mem = (s.storesAs b f (tensor.closeStores b f).1).mem
          ∧ t.reg b (0x58 + f) Off.sivTens = satAdd (s.reg b (0x58 + f) Off.sivTens) 1)
      ∧ (x.deferred = [] → s.tokenMode b f = false → 0 < x.sFull → ∃ t, exec (.ringSlotComplete u .save) s = .next t
          ∧ (t.face b f).sFull + 1 = x.sFull ∧ (t.face b f).oFull = x.oFull ∧ s.RingSignals t b f (s.reg b p Off.vecSsig) ∧ t.mem = s.mem)
      ∧ (x.deferred = [] → s.tokenMode b f = false → 0 < x.oFull → (s.reg b p Off.vecOfmt).getLsbD 7 = false →
          ∃ t, exec (.ringSlotComplete u .output) s = .next t
          ∧ (t.face b f).oFull + 1 = x.oFull ∧ (t.face b f).sFull = x.sFull ∧ s.RingSignals t b f (s.reg b p Off.vecOsig) ∧ t.mem = s.mem)
      ∧ (∀ w ws, x.deferred = w :: ws → s.tokenMode b f = true → wfld w 0 2 = 2 →
          s.tokens b f (wfld w 2 5 % 16) + wfld w 7 8 ≤ 1024 → ∃ t, exec (.ringSignalDeferred u) s = .next t
          ∧ { t with faces := s.faces } = s ∧ (t.face b f).deferred = ws
          ∧ ∀ q, t.tokens b f q = s.tokens b f q + if q = wfld w 2 5 % 16 then wfld w 7 8 else 0)

/-- A remote signal reaches its Face and acts (R110), those of one unit in the order sent; a fenced Bench, or one without its uncore
domain, discards it, which the sending Bench records (R111, R280); one that waited pushes its tokens once there is room. A Chute
operation that a full token queue holds waits while it is full, and pushes its token and frees the Chute once there is room (R106).
A Face whose waiters do not change is reported once (R114). -/
def Obligations.SignalsAndStallReports : Prop :=
  (∀ (u : UnitId) (p : Packet) (s : State),
      let b := u.bench.val
      let f := u.unit.val
      let w := w32 p.word1.toNat
      p.aux.getLsbD 0 = false → f = wfld w 5 3 →
        (p.ptype = 0x07 → p.ddie.toNat = b → p ∈ s.fabric → s.rsigAhead p = false → s.deaf b = false → (s.face b f).inbox = [] →
            s.tokenMode b f = false →
            ∃ t, exec (.rsig p) s = .next t ∧ t.fabric = s.fabric.erase p ∧ s.RemoteSignals t b f w ∧ t.mem = s.mem)
        ∧ (∀ x y q, s.fabric = x ++ q :: y → p ∉ x → p ≠ q → q.ptype = 0x07 → q.sdie = p.sdie → q.tag = p.tag → q.ddie = p.ddie →
            wfld (w32 q.word1.toNat) 5 3 = f → exec (.rsig p) s = .next s)
        ∧ (p.ptype = 0x07 → p.ddie.toNat = b → p ∈ s.fabric → s.rsigAhead p = false → s.deaf b = true → p.sdie.toNat < 16 →
            let d := p.sdie.toNat
            ∃ t, exec (.rsig p) s = .next t ∧ t.fabric = s.fabric.erase p ∧ t.faces = s.faces ∧ t.mem = s.mem
              ∧ t.reg d 0 Off.benRsigCnt = satAdd (s.reg d 0 Off.benRsigCnt) 1 ∧ (t.reg d 0 Off.irqStat).getLsbD 18 = true
              ∧ ((s.reg d 0 Off.benRsigLog).getLsbD 31 = false → t.reg d 0 Off.benRsigWord = w
                ∧ t.reg d 0 Off.benRsigLog = w32 (0x80000000 + p.tag.toNat * 0x10000 + 0x030A)))
        ∧ (∀ ps, (s.face b f).inbox = p :: ps → s.tokenMode b f = true → wfld w 8 2 = 2 → s.tokens b f (wfld w 10 5) + wfld w 15 8 ≤ 1024 →
            ∃ t, exec (.remoteSignalRoomApply u) s = .next t ∧ { t with faces := s.faces } = s ∧ (t.face b f).inbox = ps
            ∧ ∀ q, t.tokens b f q = s.tokens b f q + if q = wfld w 10 5 then wfld w 15 8 else 0))
  ∧ (∀ (u : UnitId) (s : State),
      let b := u.bench.val
      let f := u.unit.val
      (∀ op rest, (s.face b f).chute = op :: rest → op.ended = true → s.tokenMode b f = true → lfSk op.entry.words = 2 →
          let q := lfSix op.entry.words % 16
          (1024 ≤ s.tokens b f q → exec (.completionTokenPush u .chute) s = .next s)
            ∧ (s.tokens b f q < 1024 → ∃ t, exec (.completionTokenPush u .chute) s = .next t ∧ { t with faces := s.faces } = s
              ∧ (t.face b f).chute = rest ∧ t.tokens b f q = s.tokens b f q + 1))
        ∧ (f ≠ 6 → s.rfld b 0 Off.benDepwd 0 24 ≠ 0 → s.waiters b f ≠ 0 → s.unitsIdle b f = true → (s.reg b 0 Off.benDepStall).getLsbD f = false →
          ∃ t, exec (.depStall u) s = .next t ∧ { t with regs := s.regs, hostOut := s.hostOut } = s
            ∧ (t.reg b 0 Off.benDepStall).getLsbD f = true ∧ t.reg b 0 (Off.benDepWait + 4 * f) = w32 (s.waiters b f)
            ∧ (t.reg b 0 Off.irqStat).getLsbD 16 = true))

/-! ### Transfers -/

/-- The Bench Hauler accepts a HAUL (R201); a Hauler's HAUL without a remote signal completes with its SIGNAL and is counted
(R214); a kicked run sets its KDONE bit (R220). HLR_KICK marks a valid standing slot pending; at a descriptor boundary the
lowest pending slot starts with the slot's words, and stops being pending (R220). -/
def Obligations.HaulsAndStandingSlots : Prop :=
  (∀ (u : UnitId) (h : HaulerId) (s : State),
      (∀ e rest, let b := u.bench.val; let f := u.unit.val
        (s.face b f).qHauler = e :: rest → (lfImm e.words).testBit 0 = true → s.waitOk b f e.words = true → f ≠ 6 → s.en b 0x66 = true →
          s.qsc b 0x66 = false → (s.bench b).haulQ.length < 16 → ∃ t, exec (.benchHaulerAccept u) s = .next t ∧ (t.face b f).qHauler = rest
            ∧ (t.bench b).haulQ = (s.bench b).haulQ ++ [(f, e)] ∧ { t with faces := s.faces, benches := s.benches } = s)
        ∧ (∀ j, let b := h.bench.val; let k := h.idx.val
          s.job b k = some j → j.ended = true → j.slotHeld = false → wfld j.rsig 8 2 = 0 → rsigMalformed j.rsig = false →
            (j.kick = none → s.tokenMode b j.issuer = false → ∃ t, exec (.haulComplete h) s = .next t ∧ t.job b k = none
                ∧ s.Signals t b j.issuer j.entry.words ∧ t.mem = s.mem
                ∧ t.reg b (0x60 + k) Off.hlrOps = satAdd (s.reg b (0x60 + k) Off.hlrOps) 1
                ∧ t.reg b (0x60 + k) Off.hlrBytes = satAdd (s.reg b (0x60 + k) Off.hlrBytes) (j.bytes / 64))
              ∧ (∀ n < 8, j.kick = some n → ∃ t, exec (.haulComplete h) s = .next t ∧ t.job b k = none ∧ t.mem = s.mem ∧ t.faces = s.faces
                ∧ (t.reg b (0x60 + k) Off.hlrKdone).getLsbD n = true ∧ (t.reg b (0x60 + k) Off.irqStat).getLsbD 16 = true)))
  ∧ (∀ (w : PageWrite) (h : HaulerId) (s : State) (n : Nat),
      let b := h.bench.val
      let k := h.idx.val
      let p := 0x60 + k
      (w.page.die.val = b → w.page.page.val = p → n = (w.data.extractLsb' 0 3).toNat → s.Accepts w.agent b p Off.hlrKick →
          s.en b p = true → (s.reg b p Off.hlrCfg).getLsbD n = true → ∃ t, exec (.hlrKick w) s = .next t
            ∧ t.pendingKicks b k = s.pendingKicks b k ||| 2 ^ n ∧ t.mem = s.mem ∧ t.regs = s.regs)
        ∧ (s.job b k = none → s.qsc b p = false → s.en b p = true → n < 8 → (s.pendingKicks b k).testBit n = true →
          (∀ m < n, (s.pendingKicks b k).testBit m = false) →
            let s1 := s.updBench b (fun x => { x with kicks := smSet (fun _ => 0) x.kicks k (s.pendingKicks b k - 2 ^ n) })
            let use : DUse := ⟨if k = 6 then 0 else k, k, false, 0, true⟩
            let d := s.slotWords b k n
            exec (.kickRunStart h) s = .next (s1.startDescriptor b k use noEntry (some n) d)
              ∧ ((s1.descFaults b d use).find? (·.1) = none → dEmpty d = true → ∃ t j, exec (.kickRunStart h) s = .next t
                ∧ t.pendingKicks b k = s.pendingKicks b k - 2 ^ n ∧ t.job b k = some j ∧ j.kick = some n ∧ j.ended = true
                ∧ j.rsig = dRsig d ∧ j.bytes = 0 ∧ { t with benches := s.benches } = s)
              ∧ ((s1.descFaults b d use).find? (·.1) ≠ none → ∃ t, exec (.kickRunStart h) s = .next t
                ∧ t.pendingKicks b k = s.pendingKicks b k - 2 ^ n ∧ t.job b k = none ∧ t.mem = s.mem ∧ (t.reg b p Off.stat).getLsbD 2 = true)))

/-- A walk that ends gives its job the mapping, which is held, or ends it with 0x0901, recorded in XLT_FAULT (R217 to R219); the
result of a walk that began before an invalidation is not held, and its job walks again (R219; DEDUCED, log entry 50). Requests held
by the bank cap take a slot once their bank has a free one, and else stay held (R229, R231). A tier N or tier C request, or any
request on the fabric, that is not answered ends: its slot is free, its job stops, and its unit has recorded a fault (R232, R286).
-/
def Obligations.WalksAndTimeouts : Prop :=
  ∀ (b : BenchId) (ag : XltAgent) (va : DWord) (wr : Bool) (tag key : Nat) (j : Job) (s : State),
    let faulted := fun (t : State) => t.job b key = none ∧ (t.reg b (if key < 16 then 0x60 + key else 0x70) Off.stat).getLsbD 2 = true
    (xltJob ag = some key → s.job b key = some j → j.walk = some (va.toNat, wr) →
      let w := s.walk b va.toNat
      (∀ e, w.1 = some e → j.stale = false → ∃ t : State, exec (.xltWalkDone b ag va wr) s = .next (t.advance b key)
          ∧ t.job b key = some { j with walk := none } ∧ (va.toNat / 2 ^ e.2, e.2, BitVec.ofNat 64 e.1) ∈ (t.bench b).tlb ∧ t.mem = w.2.mem)
        ∧ (j.stale = true → ∃ t : State, exec (.xltWalkDone b ag va wr) s = .next (t.advance b key)
          ∧ t.job b key = some { j with walk := none, stale := false } ∧ (t.bench b).tlb = (s.bench b).tlb ∧ t.mem = w.2.mem)
        ∧ (w.1 = none → j.stale = false → j.half = none → ∃ t, exec (.xltWalkDone b ag va wr) s = .next t ∧ faulted t
          ∧ (t.reg b 0x78 Off.irqStat).getLsbD 16 = true ∧ t.mem = w.2.mem))
      ∧ (∀ l n elem rest, key ∈ jobOrder → (s.bench b).jobs = [(key, some j)] → j.walk = none → j.await = none → j.ended = false →
          j.todo = .get (.place l) n elem :: rest → locRegion l = 4 → locDie l ≠ b → s.benchGone b (locDie l) = false →
          s.routed b (locDie l) = true →
        (s.mustHold b (jobClass key) l = false → ∃ t x, exec (.bankCapRelease b) s = .next t ∧ t.mem = s.mem
            ∧ t.job b key = some { j with slotHeld := false, await := some x }
            ∧ (t.bench b).slots.map (·.tag) = (s.bench b).slots.map (·.tag) ++ [x])
          ∧ (s.mustHold b (jobClass key) l = true → ∃ t, exec (.bankCapRelease b) s = .next t ∧ t.mem = s.mem
            ∧ t.job b key = some { j with slotHeld := true } ∧ (t.bench b).slots = (s.bench b).slots))
      ∧ (∀ slot, s.slotOf b tag = some slot → slot.job = key → s.job b key = some j → j.await = some tag → j.half = none →
        (slot.tiered = true → ∃ t, exec (.memoryRequestTimeout b tag) s = .next t ∧ t.slotOf b tag = none ∧ faulted t ∧ t.mem = s.mem)
          ∧ ∃ t, exec (.fabricRequestTimeout b tag) s = .next t ∧ t.slotOf b tag = none ∧ faulted t ∧ t.mem = s.mem)

/-- The patrol scrub counts what it corrects, and records what it cannot (R250, R251). Self-tests, trainings, flushes, way
clears and invalidations end (R135, R219, R236, R237, R249, R252); an invalidation not before the walks that began before it. -/
def Obligations.PatrolScrubAndLongEvents : Prop :=
  (∀ (c : MemCtl) (line : Nat) (s : State),
      let d := (ctlOf c).1
      let p := (ctlOf c).2.1
      let cfg := s.reg d p Off.hbmCfg
      s.en d p = true → cfg.getLsbD 4 = true → cfg.getLsbD 0 = true → line < 2 ^ 36 →
        (exec (.patrolScrub c line .clean) s = .next s)
          ∧ (∃ t, exec (.patrolScrub c line .corrected) s = .next t ∧ { t with regs := s.regs } = s
            ∧ t.reg d p Off.hbmCecc = satAdd (s.reg d p Off.hbmCecc) 1)
          ∧ (∃ t, exec (.patrolScrub c line .uncorrectable) s = .next t ∧ t.mem = s.mem
            ∧ smGet (fun _ => false) t.badLines ((ctlOf c).2.2 + lineStart line) = true
            ∧ t.reg d p Off.hbmUecc = satAdd (s.reg d p Off.hbmUecc) 1 ∧ (t.reg d p Off.irqStat).getLsbD 17 = true))
  ∧ (∀ (b : BenchId) (s : State),
      (∀ (slab : Fin 24) (failing : BitVec 64), (s.reg b (0x20 + slab.val) Off.stat).getLsbD 21 = true →
          ∃ t, exec (.selfTestDone b slab failing) s = .next t ∧ { t with regs := s.regs, hostOut := s.hostOut } = s
            ∧ t.reg b (0x20 + slab.val) Off.slbTfail0 = failing.extractLsb' 0 32 ∧ t.reg b (0x20 + slab.val) Off.slbTfail1 = failing.extractLsb' 32 32
            ∧ (t.reg b (0x20 + slab.val) Off.stat).getLsbD 21 = false ∧ (t.reg b (0x20 + slab.val) Off.irqStat).getLsbD 17 = true)
        ∧ (∀ k : Fin 2, (s.reg b (0x74 + k.val) Off.stat).extractLsb' 16 2 = 1#2 → s.booting = false →
          ∃ t, exec (.hbmTrainDone b k []) s = .next t ∧ { t with regs := s.regs, hostOut := s.hostOut } = s
            ∧ (t.reg b (0x74 + k.val) Off.stat).extractLsb' 16 2 = 2#2 ∧ (t.reg b (0x74 + k.val) Off.irqStat).getLsbD 16 = true)
        ∧ (∀ (q pkg : Fin 4) (failing : List (Nat × Nat)), (s.reg (16 + q.val) (0x10 + pkg.val) Off.stat).extractLsb' 16 2 = 1#2 → s.booting = false →
          ∃ t, exec (.stkTrainDone q pkg failing) s = .next t ∧ { t with regs := s.regs, hostOut := s.hostOut } = s
            ∧ (t.reg (16 + q.val) (0x10 + pkg.val) Off.stat).extractLsb' 16 2 = (if failing = [] then 2#2 else 3#2)
            ∧ (t.reg (16 + q.val) (0x10 + pkg.val) Off.irqStat).getLsbD 16 = true)
        ∧ ((s.bench b).flushing = true → ∃ t, exec (.galFlushDone b) s = .next t ∧ (t.bench b).flushing = false
            ∧ (t.reg b 0x70 Off.irqStat).getLsbD 17 = true ∧ ((s.bench b).flushInv = true → (t.bench b).lines = [])
            ∧ ((s.bench b).flushInv = false → t.mem = s.mem ∧ (t.bench b).lines = (s.bench b).lines))
        ∧ ((s.bench b).clearing = true → (s.bench b).jobs = [] → ∃ t, exec (.galleryWayClearDone b) s = .next t
            ∧ { t with benches := s.benches } = s ∧ t.bench b = { s.bench b with clearing := false })
        ∧ ((s.bench b).invBusy = true →
            ((∀ e ∈ (s.bench b).jobs, ∀ j, e.2 = some j → j.stale = false) → ∃ t, exec (.xltInvDone b) s = .next t
                ∧ { t with benches := s.benches } = s ∧ t.bench b = { s.bench b with invBusy := false })
              ∧ (∀ k j, (k, some j) ∈ (s.bench b).jobs → j.stale = true → exec (.xltInvDone b) s = .next s)))

/-! ### Register pages -/

/-- A register write that a rule of R27 drops changes no register of a page but the Weighbridge's record of drops; an accepted one
to a plain register shows at once in the shadow (R37) and goes to its die as REGWR (R337), or, where no route leads there, is lost
(DEDUCED, log entry 10). REGWR takes the oldest write packet of a page: the block applies the write that it carries, RW bits taking
the value and W1C bits clearing where it has a 1 (R8, R337), unless it has acted at its acceptance, and acknowledges it; REGACK
takes the acknowledgement. -/
def Obligations.RegisterWritesApplyInOrder : Prop :=
  (∀ (w : BusWrite) (r : RegDesc) (s : State),
      let d := keyDie w.offset
      let p := keyPage w.offset
      let o := keyOff w.offset
      let e : PageStore := ⟨w.agent, w.offset, w.data, s.path.nextTag, false⟩
      w.bar2 = false →
      (∀ code, s.dropCode w.agent w.offset (w.be == 15) = some code → ∃ t, exec (.registerWrite [w]) s = .next t
          ∧ { t with regs := s.regs } = s ∧ t.reg 20 2 Off.wbgDwcnt = satAdd (s.reg 20 2 Off.wbgDwcnt) 1
          ∧ ∀ d' p' o', p' < 0x100 → o' < 0x1000 → (d' ≠ 20 ∨ p' ≠ 2) → t.reg d' p' o' = s.reg d' p' o')
        ∧ (s.dropCode w.agent w.offset (w.be == 15) = none → regOf d p o = some r → s.holdsWrite d p o = false →
          (inWindow d p o = false ∨ (s.sh d p Off.ctl).getLsbD 0 = false) →
          (s.numbered.flushPage d p).effect w.agent d p o w.data s.path.nextTag = none →
            ∃ t, exec (.registerWrite [w]) s = .next t ∧ t.regs = s.regs ∧ t.mem = s.mem
              ∧ t.sh d p o = (s.sh d p o &&& ~~~ (w32 r.rw)) ||| (w.data &&& w32 r.rw)
              ∧ (s.routed 20 d = true → t.path.forwarded = s.path.forwarded ++ [e] ∧ (d = 20 → s.regwrPacket e ∈ t.fabric))
              ∧ (s.routed 20 d = false → t.path.forwarded = s.path.forwarded ∧ t.fabric = s.fabric ∧ t.ports = s.ports)))
  ∧ (∀ (p : PageId) (x : Packet) (w : PageStore) (r : RegDesc) (s : State),
      let d := p.die.val
      let q := p.page.val
      s.fabric.find? (fun y => y.ptype == 0x40 && y.ddie.toNat == d && packetPage y == q) = some x →
      s.path.forwarded.find? (·.isIn x) = some w → s.pageOff d q = false → regOf d q (keyOff w.key) = some r → d ≠ 20 →
          ∃ t, exec (.regwr p) s = .next t ∧ t.path.forwarded = s.path.forwarded.erase w ∧ t.path.acks = s.path.acks ++ [w.tag] ∧ t.mem = s.mem
            ∧ (w.applied = true → t.regs = s.regs)
            ∧ (w.applied = false → t.reg d q (keyOff w.key) = r.afterWrite (s.reg d q (keyOff w.key)) w.data
              ∧ ∀ o < 0x1000, o ≠ keyOff w.key → t.reg d q o = s.reg d q o))
  ∧ (∀ (tag : Nat) (s : State),
      (∀ x, s.fabric.find? (isRegack tag) = some x → ∃ t, exec (.regack tag) s = .next t ∧ { t with path := s.path, fabric := s.fabric } = s
          ∧ t.fabric = s.fabric.erase x ∧ tag ∉ t.path.acks ∧ ∀ n, n ≠ tag → (n ∈ t.path.acks ↔ n ∈ s.path.acks))
        ∧ (s.fabric.find? (isRegack tag) = none → exec (.regack tag) s = .next s))

/-- A CTL write (R28, R33): a soft reset, which keeps LOCK, OWNER, GEN and IRQ_EN; a quiesce request and its withdrawal, an enable
that starts the check, whose first cycle reads the page and the pages that it names (R31), a lock after which only IRQ_STAT takes
writes, and a disable, refused while the block is busy (0x000C) or required (0x000E). -/
def Obligations.ControlWritesAct : Prop :=
  ∀ (w : PageWrite) (s : State),
    let d := w.page.die.val
    let p := w.page.page.val
    let v := w.data
    let only := v.getLsbD 1 = false ∧ (pageKind d p = some .fcc → v.getLsbD 16 = (s.reg d p Off.ctl).getLsbD 16)
      ∧ (pageKind d p = some .ring → v.getLsbD 16 = false)
    hasHeader d p = true → s.Accepts w.agent d p Off.ctl →
      (v.getLsbD 1 = true → ∃ t, exec (.ctlSrst w) s = .next t
          ∧ t.reg d p Off.ctl = s.reg d p Off.ctl &&& 8 ∧ t.reg d p Off.owner = s.reg d p Off.owner
          ∧ t.reg d p Off.gen = s.reg d p Off.gen ∧ t.reg d p Off.irqEn = s.reg d p Off.irqEn ∧ t.reg d p Off.refuse = 0)
        ∧ (only → v.getLsbD 2 = true → s.qsc d p = false → v.getLsbD 0 = s.en d p → ∃ t, exec (.ctlQuiesceRequest w) s = .next t
          ∧ t.qsc d p = true ∧ t.en d p = s.en d p ∧ t.mem = s.mem
          ∧ (pageKind d p = some .fcc → (t.face d (p - 0x10)).parked = true) ∧ (pageKind d p = some .mlt → (t.face d 6).parked = true))
        ∧ (only → v.getLsbD 2 = false → s.qsc d p = true → v.getLsbD 0 = s.en d p → ∃ t, exec (.ctlQuiesceClear w) s = .next t
          ∧ t.qsc d p = false ∧ (t.reg d p Off.stat).getLsbD 3 = false ∧ t.en d p = s.en d p ∧ t.mem = s.mem)
        ∧ (only → v.getLsbD 0 = true → s.en d p = false → v.getLsbD 2 = s.qsc d p → ∃ t, exec (.ctlEnable w) s = .next t
          ∧ (t.reg d p Off.stat).getLsbD 4 = true ∧ (t.sh d p Off.stat).getLsbD 4 = true ∧ t.en d p = false ∧ t.mem = s.mem
          ∧ (pageKind d p ≠ some .fcc → pageKind d p ≠ some .ring →
            smGet (fun _ => (0, 0, 0)) t.verdicts (regKey d p 0) = s.checkVerdict d p))
        ∧ (only → v.getLsbD 3 = true → v.getLsbD 0 = s.en d p → v.getLsbD 2 = s.qsc d p → ∃ t, exec (.ctlLock w) s = .next t
          ∧ (t.reg d p Off.ctl).getLsbD 3 = true ∧ t.en d p = s.en d p ∧ t.qsc d p = s.qsc d p ∧ t.mem = s.mem
          ∧ ∀ a o, o < 0x1000 → o ≠ Off.irqStat → t.dropCode a (regKey d p o) true ≠ none)
        ∧ (only → v.getLsbD 0 = false → s.en d p = true → v.getLsbD 2 = s.qsc d p → ∃ t, exec (.ctlDisable w) s = .next t
          ∧ (s.mayDisable d p = true → s.required d p = false → t.en d p = false ∧ t.reg d p Off.refuse = 0)
          ∧ (s.mayDisable d p = false → t.en d p = true ∧ t.reg d p Off.refuse = 0x6FFF000C ∧ t.mem = s.mem)
          ∧ (s.mayDisable d p = true → s.required d p = true → t.en d p = true ∧ t.reg d p Off.refuse = 0x3FFF000E ∧ t.mem = s.mem))

/-- DEPMODE may be written only while the Face is parked (R94): a CTL write that would change it at any other time leaves it as
it is and is recorded in FCC_REFUSE with 0x0304; a parked Face whose queues are empty and whose units are idle takes the new
mode, and its flags, counters and tokens are cleared (R108). -/
def Obligations.DepmodeChangesOnlyWhileParked : Prop :=
  ∀ (w : PageWrite) (s : State),
    let d := w.page.die.val
    let p := w.page.page.val
    let u := p - 0x10
    let v := w.data
    pageKind d p = some .fcc → s.Accepts w.agent d p Off.ctl → v.getLsbD 1 = false →
      v.getLsbD 16 ≠ (s.reg d p Off.ctl).getLsbD 16 → ∃ t, exec (.depmodeWrite w) s = .next t
        ∧ ((s.face d u).parked = false → t.tokenMode d u = s.tokenMode d u
          ∧ (v.getLsbD 0 = s.en d p → v.getLsbD 2 = s.qsc d p → t.reg d p Off.refuse = 0x6FFF0304 ∧ t.faces = s.faces ∧ t.mem = s.mem
            ∧ (t.reg d p Off.stat).getLsbD 1 = true ∧ (t.reg d p Off.irqStat).getLsbD 0 = true))
        ∧ ((s.face d u).parked = true → (s.face d u).queuesEmpty = true → s.unitsIdle d u = true →
          v.getLsbD 0 = s.en d p → v.getLsbD 2 = s.qsc d p →
            t.tokenMode d u = v.getLsbD 16 ∧ (t.face d u).flags = 0 ∧ (∀ q, t.counter d u q = 0 ∧ t.tokens d u q = 0) ∧ t.mem = s.mem)

/-- What a check's first cycle finds is the failing test of the lowest rank in the order of R30 (a test of panel state first in its
class: DEDUCED, log entry 93), if any fails. The check ends (R28): with every test passed the page is enabled, GEN advances and
REFUSE reads 0; else the test found is recorded and the page stays as it was. A write held behind a check is then judged (R34). A
quiesced block sets QSD and its interrupt (R33). -/
def Obligations.ChecksHeldWritesAndQuiesceEnd : Prop :=
  ∀ (p : PageId) (s : State),
    let d := p.die.val
    let q := p.page.val
    let found := smGet (fun _ => (0, 0, 0)) s.verdicts (regKey d q 0)
    ((∀ x ∈ s.checkTests d q, x.1 = false) → s.checkVerdict d q = (0, 0, 0))
      ∧ (∀ x ∈ s.checkTests d q, x.1 = true → ∃ y ∈ s.checkTests d q, y.1 = true ∧ s.checkVerdict d q = y.2 ∧ testRank y ≤ testRank x)
      ∧ (hasHeader d q = true →
      ((s.reg d q Off.stat).getLsbD 4 = true → s.path.forwarded.all (fun w => !w.isFor d q) = true →
        (found.1 = 0 → ∃ t, exec (.consistencyCheckResult p) s = .next t
            ∧ t.en d q = true ∧ (t.reg d q Off.stat).getLsbD 4 = false ∧ t.reg d q Off.gen = s.reg d q Off.gen + 1
            ∧ t.reg d q Off.refuse = 0 ∧ (t.sh d q Off.ctl).getLsbD 0 = true ∧ t.sh d q Off.gen = s.reg d q Off.gen + 1)
          ∧ (∀ cls word code, found = (cls, word, code) → cls ≠ 0 → ∃ t, exec (.consistencyCheckResult p) s = .next t
            ∧ t.reg d q Off.refuse = w32 (cls * 0x10000000 + word * 0x10000 + code) ∧ (t.reg d q Off.stat).getLsbD 1 = true
            ∧ (t.reg d q Off.stat).getLsbD 4 = false ∧ (t.reg d q Off.irqStat).getLsbD 0 = true
            ∧ t.en d q = s.en d q ∧ t.reg d q Off.gen = s.reg d q Off.gen ∧ t.mem = s.mem))
        ∧ (∀ w r, let o := keyOff w.key
          let s1 := { s with path := { s.path with held := s.path.held.erase w } }
          s.checking d q = false → s.path.held.find? (fun x => x.isFor d q) = some w → s1.dropCode w.agent w.key true = none →
            regOf d q o = some r → (inWindow d q o = false ∨ (s.sh d q Off.ctl).getLsbD 0 = false) →
            (s1.flushPage d q).effect w.agent d q o w.data w.tag = none → ∃ t, exec (.heldWriteApply p) s = .next t
              ∧ t.path.held = s.path.held.erase w ∧ (s.routed 20 d = true → { w with applied := false } ∈ t.path.forwarded) ∧ t.regs = s.regs
              ∧ t.sh d q o = (s.sh d q o &&& ~~~ (w32 r.rw)) ||| (w.data &&& w32 r.rw))
        ∧ (s.checking d q = true → exec (.heldWriteApply p) s = .next s)
        ∧ (s.qsc d q = true → (s.reg d q Off.stat).getLsbD 3 = false → s.pageRun d q = false → pageKind d q ≠ some .gal →
          (d < 16 → (s.bench d).fencing = none) → ∃ t, exec (.quiesced p) s = .next t ∧ { t with regs := s.regs, hostOut := s.hostOut } = s
            ∧ (t.reg d q Off.stat).getLsbD 3 = true ∧ (t.reg d q Off.irqStat).getLsbD 2 = true))

/-- A write of 1 to RESUME.GO (R93): while the control core is parked, holds no exception record, waits for no swap and QSC is 0,
it resumes, at RPC with USE_RPC = 1 and else where it parked, whatever its queues hold; with SWAP = 1 the bank swap comes first,
and the core goes on when it commits. Otherwise the resume is refused with 0x0209, and the unit stays as it was. -/
def Obligations.ResumeStartsParkedCore : Prop :=
  ∀ (w : PageWrite) (u : Nat) (s : State),
    let d := w.page.die.val
    let p := w.page.page.val
    let v := w.data
    let accepted := (s.face d u).parked = true ∧ s.excValid d u = false ∧ (s.face d u).swap = none ∧ s.qsc d p = false
    let goesOn := fun (t : State) => t.mem = s.mem ∧ t.regs = s.regs ∧ (∀ k ∈ s.coreKeys d u, (t.core k).stopped = false
      ∧ (v.getLsbD 1 = true → (t.core k).pc = s.rfld d p Off.fccRpc 0 17))
      ∧ (v.getLsbD 1 = false → (t.core (mainCore d u)).pc = (s.core (mainCore d u)).pc)
    (pageKind d p = some .fcc ∧ u = p - 0x10) ∨ (pageKind d p = some .mlt ∧ u = 6) → s.Accepts w.agent d p Off.fccResume →
      v.getLsbD 0 = true →
        (accepted → v.getLsbD 2 = false → ∃ t, exec (.fccResume w) s = .next t ∧ goesOn t ∧ (t.face d u).parked = false)
        ∧ (accepted → v.getLsbD 2 = true → ∃ t, exec (.fccResume w) s = .next t ∧ goesOn t ∧ (t.face d u).parked = true
          ∧ (t.face d u).swap.isSome = true
          ∧ ∀ c, coreBench c = d → coreUnit c = u → t.writesBank d u (1 - (s.face d u).bank.toNat) = false →
              ∃ r, exec (.bankSwapCommit c) t = .next r ∧ (r.face d u).parked = false ∧ (r.face d u).bank = !(s.face d u).bank
                ∧ r.cores = t.cores)
        ∧ (¬ accepted → ∃ t, exec (.fccResume w) s = .next t ∧ t.reg d p Off.refuse = 0x6FFF0209
          ∧ (t.reg d p Off.stat).getLsbD 1 = true ∧ (t.reg d p Off.irqStat).getLsbD 0 = true
          ∧ t.faces = s.faces ∧ t.cores = s.cores ∧ t.mem = s.mem)

/-- The registers of a Bench that act when they are written: IRQ_SET (R22), EXC_CLR (R96), SLB_TEST (R135),
VEC_SEED_LD (R55, R157), XLT_INV (R219), GAL_FLUSH (R237) and GAL_EPOCH (R242), and the training of memories and links (R249, R252,
R260). -/
def Obligations.TriggerRegistersAct : Prop :=
  ∀ (w : PageWrite) (s : State),
    let d := w.page.die.val
    let p := w.page.page.val
    let v := w.data
    let acc := fun o => s.Accepts w.agent d p o
    let unit := fun u => (pageKind d p = some .fcc ∧ u = p - 0x10) ∨ (pageKind d p = some .mlt ∧ u = 6)
    (hasHeader d p = true → acc Off.irqSet → ∃ t, exec (.irqSet w) s = .next t
        ∧ { t with regs := s.regs, hostOut := s.hostOut, path := s.path, fabric := s.fabric, ports := s.ports } = s
        ∧ t.reg d p Off.irqStat = s.reg d p Off.irqStat ||| (v &&& w32 (irqBits d p)))
      ∧ (∀ u, unit u → acc Off.fccExcClr → v.getLsbD 0 = true → ∃ t, exec (.fccExcClr w) s = .next t
          ∧ { t with regs := s.regs, path := s.path, ports := s.ports } = s ∧ t.excValid d u = false
          ∧ t.reg d p Off.fccExc = 0 ∧ (t.reg d p Off.stat).getLsbD 2 = false)
      ∧ (pageKind d p = some .slb → acc Off.slbTest → v.getLsbD 0 = true → ∃ t, exec (.slbTest w) s = .next t
          ∧ (s.en d p = false → (s.reg d p Off.stat).getLsbD 21 = false →
              (t.reg d p Off.stat).getLsbD 21 = true ∧ t.slab d (p - 0x20) = Slab.empty)
          ∧ (s.en d p = true → t.reg d p Off.refuse = 0x6FFF040A ∧ t.slabs = s.slabs))
      ∧ (pageKind d p = some .vec → acc Off.vecSeedLd → v.getLsbD 0 = true → ∃ t, exec (.vecSeedLd w) s = .next t ∧ t.regs = s.regs
          ∧ (t.face d (p - 0x48)).lfsr = if s.reg d p Off.vecSeedHi = 0 ∧ s.reg d p Off.vecSeedLo = 0 then 1
            else s.reg d p Off.vecSeedHi ++ s.reg d p Off.vecSeedLo)
      ∧ (pageKind d p = some .xlt → acc Off.xltInv → v.getLsbD 0 = true → ∃ t, exec (.xltInv w) s = .next t ∧ t.regs = s.regs ∧ t.mem = s.mem
          ∧ (t.bench d).tlb = [] ∧ (t.bench d).invBusy = true
          ∧ ∀ k j, s.job d k = some j → ∃ j', t.job d k = some j' ∧ j'.stale = j.walk.isSome)
      ∧ (pageKind d p = some .gal → acc Off.galFlush → v.extractLsb' 0 2 = 1#2 → ∃ t, exec (.galFlushWriteback w) s = .next t
          ∧ (t.bench d).flushing = true ∧ ∀ g ∈ (t.bench d).lines, g.dirty = false)
      ∧ (pageKind d p = some .gal → acc Off.galFlush → v.extractLsb' 0 2 = 2#2 → ∃ t, exec (.galFlushInvalidate w) s = .next t
          ∧ (t.bench d).flushing = true ∧ (t.bench d).flushInv = true)
      ∧ (pageKind d p = some .gal → acc Off.galEpoch → v.getLsbD 0 = true → ∃ t, exec (.galEpochFence w) s = .next t ∧ t.mem = s.mem
          ∧ (t.bench d).lines = (s.bench d).lines.filter (fun g => !g.pf)
          ∧ t.rfld d p Off.galEpoch 8 8 = (s.rfld d p Off.galEpoch 8 8 + 1) % 256)
      ∧ (pageKind d p = some .hbm → acc Off.hbmTrain → v.getLsbD 0 = true → ∃ t, exec (.hbmTrain w) s = .next t ∧ t.mem = s.mem
          ∧ (s.en d p = false → (t.reg d p Off.stat).extractLsb' 16 2 = 1#2) ∧ (s.en d p = true → t.reg d p Off.refuse = 0x6FFF0922))
      ∧ (pageKind d p = some .stkCtl → acc Off.stkTrain → v.getLsbD 0 = true → ∃ t, exec (.stkTrain w) s = .next t ∧ t.mem = s.mem
          ∧ (s.en d p = false → (t.reg d p Off.stat).extractLsb' 16 2 = 1#2) ∧ (s.en d p = true → t.reg d p Off.refuse = 0x6FFF0931))
      ∧ (pageKind d p = some .lnk → acc Off.lnkTrain → v.getLsbD 0 = true → ∃ t, exec (.lnkTrain w) s = .next t ∧ t.mem = s.mem
          ∧ (s.en d p = false → s.lstate d (p - 0x80) ≤ 4 → t.lstate d (p - 0x80) = 1)
          ∧ (s.en d p = true → t.reg d p Off.refuse = 0x6FFF0A04))

/-! ### The Weighbridge -/

/-- The write drain starts and ends (R39); IRQREARM and a lifted mask send what waited, and masked vectors pend (R340). -/
def Obligations.DrainsAndMessages : Prop :=
  ∀ (a : Agent) (v : Word) (s : State),
    (s.Accepts a 20 2 Off.wbgDrain → v.getLsbD 0 = true → ∃ t, exec (.wbgDrain a v) s = .next t ∧ t.mem = s.mem
        ∧ t.path.drain = some s.path.nextTag ∧ (t.reg 20 2 Off.wbgDrstat).getLsbD 0 = true)
      ∧ (∀ n, s.path.drain = some n →
        ((∀ x ∈ s.path.acks, n ≤ x) → (∀ w ∈ s.path.forwarded, n ≤ w.tag) → (∀ w ∈ s.path.held, n ≤ w.tag) →
          ∃ t, exec .writeDrainDone s = .next t ∧ t.path = { s.path with drain := none } ∧ (t.reg 20 2 Off.wbgDrstat).getLsbD 0 = false)
        ∧ ((∃ x ∈ s.path.acks, x < n) ∨ (∃ w ∈ s.path.forwarded, w.tag < n) ∨ (∃ w ∈ s.path.held, w.tag < n) →
          exec .writeDrainDone s = .next s))
      ∧ (s.Accepts a 20 0 Off.wbgIrqrearm → ∃ t, exec (.wbgIrqrearm a v) s = .next t ∧ t.mem = s.mem
        ∧ ∀ d < 23, v.getLsbD d = true → (s.reg 20 0 Off.wbgIrqsum).getLsbD d = true →
          (s.vectorMasked (65 + d) = true → (t.reg 20 0xC1 (4 * ((65 + d) / 32))).getLsbD ((65 + d) % 32) = true)
          ∧ (s.vectorMasked (65 + d) = false → ∃ x y, HostEvent.message (65 + d) x y ∈ t.hostOut))
      ∧ (∀ m : Fin 128, s.msixOn = true → s.msixFnMask = false → (s.reg 20 0xC1 (4 * (m.val / 32))).getLsbD (m.val % 32) = true →
        ∃ (t : State) (x : Nat), exec (.msixVectorUnmask (.vector m)) s = .next t
          ∧ t.hostOut = s.hostOut ++ [.message m.val x (s.reg 20 0xC0 (16 * m.val + 8)).toNat]
          ∧ (t.reg 20 0xC1 (4 * (m.val / 32))).getLsbD (m.val % 32) = false)

/-- A block's values reach the shadows in the bits that are not RW (R37), a packet of no or of more than 16 values is malformed
(R337), and a SHREQ that reaches its page makes it send all of them. A read of BAR0 returns the shadow and clears what it returned
(R38, R427); the Weighbridge's own registers are shown as they stand (DEDUCED, log entry 109). BAR2 reads 0 outside the boot window
(R335). A request that hits no BAR is counted, answered without data, and sends vector 88 (R339, R355). -/
def Obligations.ShadowsAndReads : Prop :=
  ∀ (p : PageId) (o : Nat) (vals : List Word) (r : BusRead) (g : RegDesc) (s : State),
    let d := p.die.val
    let q := p.page.val
    let rd := keyDie r.offset
    let rp := keyPage r.offset
    let ro := keyOff r.offset
    let v := (if rd = 20 ∧ hasHeader rd rp = true then s.updateShadow rd rp ro (s.view rd rp ro) else s).sh rd rp ro
    let req := fun (x : Packet) => x.ptype == 0x43 && x.ddie.toNat == d && packetPage x == q
    (vals = [] ∨ 16 < vals.length → exec (.shupd p o vals) s = .fault .malformedCommand)
      ∧ (∀ x y, s.fabric.find? (s.isShupd d q o [x]) = some y → regOf d q o = some g → o < 0x1000 → o ≠ Off.ctl → o ≠ Off.stat →
        ∃ t, exec (.shupd p o [x]) s = .next t ∧ { t with fabric := s.fabric, shadow := s.shadow } = s
          ∧ t.fabric = s.fabric.erase y ∧ t.sh d q o = (s.sh d q o &&& w32 g.rw) ||| (x &&& ~~~ (w32 g.rw)))
      ∧ (∀ x, s.fabric.find? (s.isShupd d q o [x]) = none → s.pageOff d q = false → x = s.view d q o →
        ∃ t, exec (.shupd p o [x]) s = .next t ∧ t.regs = s.regs ∧ t.shadow = s.shadow ∧ s.Sends t (s.shupdPacket d q o [x]))
      ∧ (∀ x, hasHeader d q = true → s.pageOff d q = false → s.fabric.find? req = some x → ∃ t, exec (.shreq p) s = .next t
          ∧ { t with fabric := s.fabric, ports := s.ports } = s
          ∧ ∀ w < 64, (∃ i < 16, (regOf d q (64 * w + 4 * i)).isSome = true) →
              s.Sends t (s.shupdPacket d q (64 * w) (({ s with fabric := s.fabric.erase x } : State).views d q (64 * w) 16)))
      ∧ (r.bar2 = true → r.size = 4 → r.offset % 4 = 0 → r.offset < 0x80000 ∨ 0x8001C ≤ r.offset →
        exec (.readClear r) s = .next { s with readData := leBytes 4 0 })
      ∧ (r.bar2 = false → r.size = 4 → r.offset % 4 = 0 → unmapped r.offset = false → s.pageOff rd rp = false → regOf rd rp ro = some g →
        (rd ≠ 22 ∨ safReports rp ro = 0 → ∃ t, exec (.readClear r) s = .next t ∧ t.readData = leBytes 4 v.toNat ∧ t.mem = s.mem
            ∧ (g.rc = 0 → t.regs = s.regs)
            ∧ (g.rc = 0xFFFFFFFF → (pageKind rd rp).any (fun k => isRecord k ro) = false → v.toNat ≤ (s.reg rd rp ro).toNat →
              t.reg rd rp ro = s.reg rd rp ro - v)
            ∧ (g.rc ≠ 0 → g.rc ≠ 0xFFFFFFFF → t.reg rd rp ro = s.reg rd rp ro &&& ~~~ (v &&& w32 g.rc)))
        ∧ (rd = 22 → safReports rp ro ≠ 0 → ∃ t, exec (.safIrqClearOnRead r) s = .next t ∧ t.readData = leBytes 4 v.toNat
            ∧ (t.reg 22 0 Off.irqStat).getLsbD (safReports rp ro) = false))
      ∧ ∀ isRead, ∃ t, exec (.unsupportedRequest isRead) s = .next t ∧ t.mem = s.mem ∧ HostEvent.unsupported isRead ∈ t.hostOut
          ∧ t.reg 20 1 Off.wbgAerUe = satAdd (s.reg 20 1 Off.wbgAerUe) 1
          ∧ (s.vectorMasked 88 = false → ∃ x y, HostEvent.message 88 x y ∈ t.hostOut)

/-! ### Collectives -/

/-- The head of a collective queue starts (R240, R243, R293, R301): a REDUCE, GATHER or BCAST without a start fault whose turn it is takes
the next SEQ, becomes active, and a REDUCE grants its children 512 chunks with its digest (R294, R300); an atomic batch or a prefetch
becomes the queue's Gallery job, which first waits for the walk of its first address where no translation is held, and completes with
its SIGNAL (R245). -/
def Obligations.CollectivesAndBatchesStart : Prop :=
  ∀ (u : UnitId) (e : QEntry) (rest : List QEntry) (j : Job) (s : State),
    let b := u.bench.val
    let f := u.unit.val
    let d := s.collDesc b f e
    let k := cdf d 0 1
    let c := (s.collStart b f e d).1
    let starts := fun (i : Instr) => ∃ t, exec i s = .next t ∧ (t.face b f).qColl = rest ∧ t.mem = s.mem
      ∧ (t.bench b).cru.act = (s.bench b).cru.act ++ [c] ∧ c.seq = (s.reg b 0x88 Off.cruSeq).toNat ∧ c.unit = f ∧ c.entry = e
      ∧ t.reg b 0x88 Off.cruSeq = s.reg b 0x88 Off.cruSeq + 1
      ∧ ∀ tree ∈ c.trees, k = 1 → ∀ m ∈ c.kidsOf tree,
          s.Sends t (s.packet b m 0x11 1 0 0 0 (collWord c tree 512 false 0) (flits c.digest))
    let s1 := s.takeHead b f .coll e
    let lens := (List.range (min 64 (cdf d 2 2))).map (fun i => s.natAs b (agentOf f) (fsLoc b f (cdf d 8 8 + 16 * i + 8)) 8)
    let runs := fun (i : Instr) (p : Job → Prop) => ∃ (t : State) (j : Job), exec i s = .next t
      ∧ t = (s1.setJob b (16 + f) (some j)).advance b (16 + f) ∧ (s1.face b f).qColl = rest ∧ j.issuer = f ∧ j.entry = e ∧ j.bytes = k ∧ p j
      ∧ ∀ va as, (∃ aop ty x y r n, j.todo = .atom va aop ty x y r n :: as ∧ va % atomSize ty = 0) ∨ j.todo = .line va :: as →
          s.find b (.virt va) (k == 0xA0) = .needWalk va → t.job b (16 + f) = some { j with walk := some (va, k == 0xA0) }
    let ends := fun (i : Instr) => ∃ t, exec i s = .next t ∧ t.job b (16 + f) = none ∧ s.Signals t b f j.entry.words ∧ t.mem = s.mem
    ((s.face b f).qColl = e :: rest → s.waitOk b f e.words = true → s.tokenMode b f = false →
        (s.en b 0x88 = true → s.qsc b 0x88 = false → s.seqTurn b e = true → (s.collStart b f e d).2 = none → s.collReady b c = true →
          (s.bench b).cru.early = [] → (k = 1 → starts (.reduce u)) ∧ (k = 2 → starts (.gather u)) ∧ (k = 3 → starts (.bcast u)))
        ∧ (s.en b 0x70 = true → s.qsc b 0x70 = false → s.job b (16 + f) = none →
          (k = 0xA0 → batchBad f e.words e.ga.toNat d = false → runs (.atomicBatch u) (fun j => j.todo.length = cdf d 4 4))
          ∧ (k = 0xA1 → prefetchBad f e.words e.ga.toNat d lens = false → cdf d 1 1 = 0 →
            runs (.prefetch u) (fun j => ∀ a ∈ j.todo, ∃ l, a = .line l ∧ l % 128 = 0))))
      ∧ (s.job b (16 + f) = some j → j.ended = true → j.slotHeld = false → wfld j.rsig 8 2 = 0 → rsigMalformed j.rsig = false →
        s.tokenMode b f = false →
          (j.bytes = 0xA0 → ends (.atomicBatchComplete u)) ∧ (j.bytes = 0xA1 → ends (.prefetchComplete u)))

/-- The packets of a collective at a member (R300, R302, R305, R309, R310): a contribution is added to its slot, after the member's own
where that comes first (DEDUCED, log entry 67), a grant that agrees raises the window and one that disagrees stops the collective
(0x0B10), a reduced chunk is stored, an EL7 contribution waits to land, an ABORT stops the collective (0x0B11), as a timeout does
(0x0B12). -/
def Obligations.CollectivePacketsAct : Prop :=
  ∀ (p : Packet) (u : UnitId) (c : Coll) (vs : List (Option Nat)) (s : State), c.unit = u.unit.val →
    let b := p.ddie.toNat
    let tree := pktTree p
    let chunk := pktChunk p
    let sl := c.cslot tree chunk
    let own := (rawElems c.size (s.bytesAs b 8 (fsLoc b c.unit (c.src + (c.span tree chunk).1 * c.size)) ((c.span tree chunk).2 * c.size))).map some
    let stops := fun (t : State) (code : Nat) => t.coll b c.seq = none ∧ t.mem = s.mem
      ∧ ((s.reg b 0x88 Off.cruFault).getLsbD 31 = false → t.reg b 0x88 Off.cruFault = w32 (0x80000000 + code)
        ∧ t.reg b 0x88 Off.cruFaultSeq = w32 c.seq)
    (p ∈ s.fabric → b < 16 → s.deaf b = false → s.packetColl b p = some c →
      (p.ptype = 0x10 → tree ∈ c.trees → chunk < c.chunks tree → (c.gather p).2 = some vs →
        sl.own = true ∨ (c.srcVirt = false ∧ c.thin = false ∧ c.tied = [] ∧ c.guard = false) → ∃ t c', exec (.rdata p) s = .next t
          ∧ t.mem = s.mem ∧ t.fabric = s.fabric.erase p ∧ c' ∈ (t.bench b).cru.act ∧ c'.seq = c.seq
          ∧ (c'.cslot tree chunk).got = sl.got + 1 ∧ (sl.own = true → (c'.cslot tree chunk).own = true)
          ∧ ((c'.cslot tree chunk).own = sl.own → (c'.cslot tree chunk).vals = (c.addTo sl.vals vs).1)
          ∧ ((c'.cslot tree chunk).own ≠ sl.own → (c'.cslot tree chunk).vals = (c.addTo (c.addTo sl.vals own).1 vs).1)
          ∧ t.reg b 0x88 Off.cruAdds = satAdd (s.reg b 0x88 Off.cruAdds) 1)
        ∧ (p.ptype = 0x11 → p.data = c.digest → c.forward = [] → ∃ t c', exec (.rgnt p) s = .next t ∧ t.mem = s.mem
          ∧ t.fabric = s.fabric.erase p ∧ c' ∈ (t.bench b).cru.act ∧ c'.seq = c.seq
          ∧ c'.grant tree p.sdie.toNat = max chunk (c.grant tree p.sdie.toNat))
        ∧ (p.ptype = 0x11 → p.data ≠ c.digest → ∃ t, exec (.rgnt p) s = .next t ∧ stops t 0x0B10)
        ∧ (p.ptype = 0x12 → tree ∈ c.trees → chunk < c.chunks tree → (c.gather p).2 = some vs → c.guard = false → c.dstSpace = 0 →
          s.taskState b = 0 → ∃ t, exec (.bdata p) s = .next t
            ∧ t.mem = (s.putBytes (fsLoc b c.unit (c.dst + (c.span tree chunk).1 * c.size)) (c.dense vs)).mem)
        ∧ (p.ptype = 0x13 → c.el7 = true → tree ∈ c.trees → chunk < c.chunks tree → (c.gather p).2 = some vs → ∃ t c',
          exec (.ldata p) s = .next t ∧ t.mem = s.mem ∧ c' ∈ (t.bench b).cru.act ∧ c'.seq = c.seq
            ∧ c'.toLand = (c.waitLanding tree chunk (pktRank p) vs).toLand)
        ∧ (p.ptype = 0x14 → ∃ t, exec (.abort p) s = .next t ∧ stops t 0x0B11))
      ∧ ∀ d : BenchId, d.val = b → s.coll b c.seq = some c → c.ended = false → ∃ t, exec (.collTimeout d c.seq) s = .next t ∧ stops t 0x0B12

/-- A member without children sends its elements to its tree's parent (R301, R302, R305); the first EL7 slice that may land does, in
its slot, and the last of its chunk advances the landed counter (R309); a collective whose chunks are all through frees its slots,
sets the interrupt and gives its SIGNAL (R304). -/
def Obligations.CollectivesSendLandAndComplete : Prop :=
  ∀ (b : BenchId) (c : Coll) (s : State),
    (∀ tree chunk par, let sp := c.span tree chunk
      s.coll b c.seq = some c → c.ended = false → tree ∈ c.trees → chunk < c.chunks tree → c.kind = 1 → c.el7 = false → c.guard = false →
        c.thin = false → c.tied = [] → c.srcVirt = false → smGet (fun _ => false) c.upDone (chunkKey tree chunk) = false →
        c.kidsOf tree = [] → c.cslot tree chunk = ⟨0, false, []⟩ → c.parentOf tree = some par →
        chunk < c.grant tree par → s.taskState b = 0 →
          let bs := s.bytesAt (fsLoc b c.unit (c.src + sp.1 * c.size)) (sp.2 * c.size)
          let wire := c.dense ((rawElems c.size bs).map some)
          ∃ t c', exec (.crusherSlotComplete b c.seq tree chunk) s = .next t ∧ t.mem = s.mem
            ∧ t.ports = (s.sendChunk b par 0x10 c tree chunk false wire).ports
            ∧ (c.fmt = .fp32 ∨ c.fmt = .bf16 →
              s.Sends t (s.packet b par 0x10 0 0 0 0 (collWord c tree chunk false (wire.length % 64)) (flits wire)))
            ∧ c' ∈ (t.bench b).cru.act ∧ c'.seq = c.seq ∧ smGet (fun _ => false) c'.upDone (chunkKey tree chunk) = true)
      ∧ (∀ n srank data, ((s.bench b).cru.act.filter (fun c => c.el7 && c.toLand != [])).findSome?
          (fun c => (s.landable b c).map (fun x => (c, x))) = some (c, (n, srank, data)) → s.tokenMode b c.unit = false → s.taskState b = 0 →
          ∃ t, exec (.el7Land b) s = .next t
            ∧ t.mem = (s.putBytes (fsLoc b c.unit (cdf c.desc 0x28 4 + (n % max 1 (cdf c.desc 0x2C 2) * c.g + srank) * 512)) data).mem
            ∧ t.counter b c.unit c.lcnt = if smGet (fun _ => 0) c.landed n + 1 = c.g
              then min 4294967295 (s.counter b c.unit c.lcnt + 1) else s.counter b c.unit c.lcnt)
      ∧ (s.coll b c.seq = some c → c.ended = false → s.collDone b c = true → c.guard = false → s.tokenMode b c.unit = false →
        wfld (w32 (cdf c.desc 4 4)) 8 2 = 0 → rsigMalformed (w32 (cdf c.desc 4 4)) = false →
          ∃ t, exec (.collComplete b c.seq) s = .next t ∧ t.coll b c.seq = none ∧ (t.reg b 0x88 Off.irqStat).getLsbD 16 = true
            ∧ s.Signals t b c.unit c.entry.words ∧ t.mem = s.mem)

/-! ### The fabric -/

/-- Requests at their target (R244, R252, R265, R266, R280): one whose turn has not come waits; a read of a store returns its bytes,
a write changes them and is acknowledged, a fetch-add and a compare-and-swap act on scratch, and a fenced Bench answers another
die's request with STS 3, as a die without power does, and as an address beyond every memory is answered (DEDUCED, log entry 106).
An answer frees its slot, and the last one ends its job; a failed one stops it (R229, R232). -/
def Obligations.FabricRequestsServed : Prop :=
  ∀ (p : Packet) (s : State),
    let d := p.ddie.toNat
    let l := packetPlace p
    let answers := fun (t : State) (ty sts : Nat) (data : List Byte) =>
      s.Sends t (s.packet d p.sdie.toNat ty 1 p.tag.toNat sts 0 0 (flits data))
    let byte := fun i => (p.data.getD i 0).toNat
    let old := s.bytesAt l 4
    let opnd := leNat ((p.data.drop 8).take 4)
    p ∈ s.fabric →
      (s.takesRequest p = false → exec (.rdreq p) s = .next s ∧ exec (.wrreq p) s = .next s ∧ exec (.atomreq p) s = .next s)
        ∧ (s.takesRequest p = true → (s.deaf d = true ∧ p.sdie ≠ p.ddie) ∨ s.uncoreOn d = false ∨ 2 ^ 40 ≤ p.word1.toNat % 2 ^ 48 →
          (p.ptype = 0x01 → ∃ t, exec (.rdreq p) s = .next t ∧ t.mem = s.mem ∧ answers t 0x02 3 [])
          ∧ (p.ptype = 0x03 → ∃ t, exec (.wrreq p) s = .next t ∧ t.mem = s.mem ∧ answers t 0x04 3 [])
          ∧ (p.ptype = 0x05 → ∃ t, exec (.atomreq p) s = .next t ∧ t.mem = s.mem ∧ answers t 0x06 3 []))
        ∧ (s.takesRequest p = true → s.deaf d = false ∨ p.sdie = p.ddie → s.uncoreOn d = true → d < 16 →
          (2 ≤ (p.aux.extractLsb' 1 2).toNat → p.word1.toNat % 2 ^ 48 < 0x800000 →
            (p.ptype = 0x01 → ∃ t, exec (.rdreq p) s = .next t ∧ t.mem = s.mem
              ∧ answers t 0x02 0 (s.bytesAt (l - l % 64) (if p.aux.getLsbD 0 then 128 else 64)))
            ∧ (p.ptype = 0x03 → ∃ t, exec (.wrreq p) s = .next t ∧ t.mem = (s.putBytes l (packetBytes p)).mem ∧ answers t 0x04 0 []))
          ∧ ((p.aux.extractLsb' 1 2) = 1#2 → p.word1.toNat % 2 ^ 48 < 2 ^ 27 → s.en d 0x70 = true → p.ptype = 0x05 → byte 1 = 0 → byte 2 = 1 →
            (byte 0 = 0 → ∃ t, exec (.atomreq p) s = .next t ∧ answers t 0x06 0 old
              ∧ t.mem = (s.putBytes l (leBytes 4 ((leNat old + opnd) % 2 ^ 32))).mem)
            ∧ (byte 0 = 3 → ∃ t, exec (.atomreq p) s = .next t ∧ answers t 0x06 0 old
              ∧ t.mem = (s.putBytes l (leBytes 4 (if leNat old = leNat ((p.data.drop 16).take 4) then opnd else leNat old))).mem)))
        ∧ (∀ slot j, d ≠ 20 → s.slotOf d p.tag.toNat = some slot → s.job d slot.job = some j → s.taskState d = 0 →
          let goes := fun (i : Instr) (j' : Job) => ∃ s2 t : State, exec i s = .next t ∧ t = s2.advance d slot.job
            ∧ s2.slotOf d p.tag.toNat = none ∧ s2.job d slot.job = some j' ∧ s2.mem = s.mem
            ∧ (j'.todo = [] → j'.posted = [] → j'.half = none → j'.walk = none → j'.ended = false →
              t.job d slot.job = some { j' with ended := true } ∧ t.slotOf d p.tag.toNat = none ∧ t.mem = s.mem)
          (∀ e n k rest, p.ptype = 0x02 → p.sts = 0 → j.await = some p.tag.toNat → j.todo = .get e n k :: rest →
            goes (.rdrsp p) { j.made (.get e n k) with await := none, todo := rest, buf := j.buf ++ [(p.data.drop (slot.place % 64)).take n] })
          ∧ (∀ va aop ty x y k rest, p.ptype = 0x06 → p.sts = 0 → j.await = some p.tag.toNat → j.todo = .atom va aop ty x y none k :: rest →
            goes (.atomrsp p) { j with await := none, todo := rest })
          ∧ (p.ptype = 0x04 → p.sts = 0 → j.await ≠ some p.tag.toNat → p.tag.toNat ∈ j.posted → ∃ t, exec (.wrack p) s = .next t
            ∧ t.slotOf d p.tag.toNat = none ∧ t.mem = s.mem ∧ t.job d slot.job = some { j with
              posted := j.posted.erase p.tag.toNat,
              ended := j.todo.isEmpty && (j.posted.erase p.tag.toNat).isEmpty && j.half.isNone && j.walk.isNone && j.await.isNone })
          ∧ (p.ptype = 0x02 → p.sts ≠ 0 → j.await = some p.tag.toNat → j.half = none → ∃ t, exec (.rdrsp p) s = .next t
            ∧ t.slotOf d p.tag.toNat = none ∧ t.job d slot.job = none ∧ t.mem = s.mem))

/-- DISC gives a die its number once, and is answered (R273); a disagreeing answer is recorded (R272). A route table is taken in one
event and acknowledged (R289). ENTER fences a Bench: in discard mode its cores stop, in a drain those with queued forms go on; MODE
discards, LEAVE opens the Bench again; one that does not fit is counted as a bad packet or answered STS 3 (R283, R285). -/
def Obligations.FabricControlPacketsAct : Prop :=
  ∀ (p : Packet) (s : State),
    let d := p.ddie.toNat
    let w := p.word1.toNat
    let s1 := { s with fabric := s.fabric.erase p }
    p ∈ s.fabric → (d < 20 → s.uncoreOn d = true) →
      (p.ptype = 0x20 → ∃ (t : State) (n : Nat), exec (.disc p) s = .next t ∧ t.mem = s.mem ∧ (p.sdie ≠ p.ddie → t.regs = s.regs)
          ∧ smGet (fun _ => 0) t.dieNum d = n + 1
          ∧ (smGet (fun _ => 0) s.dieNum d = 0 → n = w % 32) ∧ (∀ k, smGet (fun _ => 0) s.dieNum d = k + 1 → n = k)
          ∧ s.Sends t (s.packet d p.sdie.toNat 0x21 1 p.tag.toNat 0 0 (n + 32 * dieType d) []))
        ∧ (p.ptype = 0x21 → s.fstat 0 3 ≠ 3 →
          (w % 32 = p.sdie.toNat → w / 32 % 4 = dieType p.sdie.toNat → exec (.discrsp p) s = .next s1)
          ∧ (w % 32 ≠ p.sdie.toNat → (s.reg 20 0x80 Off.lnkFlog).getLsbD 31 = false → ∃ t, exec (.discrsp p) s = .next t ∧ t.mem = s.mem
            ∧ t.reg 20 0x80 Off.lnkFlog = w32 (0x80000A11 + p.sdie.toNat * 2 ^ 16)))
        ∧ (p.ptype = 0x22 → ∃ t, exec (.rtload p) s = .next t ∧ t.mem = s.mem
          ∧ (∀ i < 23, t.reg d 0x80 (Off.lnkRt + 4 * i) = (flitTable p.data).getD i 0)
          ∧ t.reg d 0x80 Off.lnkRtgen = s.reg d 0x80 Off.lnkRtgen + 1
          ∧ ∃ a, t.Sends t a ∧ a.ptype = 0x04 ∧ a.sdie = p.ddie ∧ a.ddie = p.sdie ∧ a.tag = p.tag ∧ a.sts = 0)
        ∧ (p.ptype = 0x23 →
          (w % 4 = 0 → fctlGood p 0 = true → ∃ t, exec (.fctlEnter p) s = .next t ∧ (t.bench d).fenced = true
            ∧ ((s.bench d).fenced = false → p.word1.getLsbD 2 = true → ∀ u < 7, (t.face d u).parked = true)
            ∧ ((s.bench d).fenced = false → p.word1.getLsbD 2 = false → ∀ u < 7, (s.face d u).queuesEmpty = false →
              (t.face d u).parked = (s.face d u).parked ∧ (t.bench d).fencing = some (p.tag.toNat, false))
            ∧ ((s.bench d).fenced = true → { t with fabric := s1.fabric, ports := s1.ports } = s1 ∧ s.Sends t (s.wrackTo p 3)))
          ∧ (w % 4 = 1 → fctlGood p 1 = true → ∃ t, exec (.fctlMode p) s = .next t ∧ (∀ n, (t.bench d).fencing ≠ some (n, false))
            ∧ s.Sends t (s.wrackTo p 0)
            ∧ ((s.bench d).fencing = none → { t with fabric := s1.fabric, ports := s1.ports } = s1))
          ∧ (w % 4 = 2 → fctlGood p 2 = true → ∃ t, exec (.fctlLeave p) s = .next t ∧ t.mem = s.mem ∧ (t.bench d).fenced = false
            ∧ s.Sends t (s.wrackTo p (if (s.bench d).fenced then 0 else 3)))
          ∧ (w % 4 = 2 → fctlGood p 2 = false → ∃ t, exec (.fctlLeave p) s = .next t ∧ { t with regs := s.regs } = s1
            ∧ ∃ port, t.reg d (lnkPage port) Off.lnkBadpkt = satAdd (s.reg d (lnkPage port) Off.lnkBadpkt) 1))

/-- Links at work (R260, R261, R264, R267, R269): training ends with both ends UP or FAILED, a failing lane takes a spare while both
ends wait, the swap ends and what was not acknowledged is sent again; a new frame that meets no errors has a CRC that holds; a frame
that is due is taken, its symbols and flits counted, and one whose CRC fails is asked for again. -/
def Obligations.LinksTrainSwapAndCount : Prop :=
  ∀ (p : PortId) (e q : Nat) (s : State),
    let d := p.die.val
    let k := p.port.val
    partner d k = some (e, q) →
      (∀ tx rx : BitVec 18, s.lstate d k = 1 → s.fstat 0 3 ≠ 3 → ∃ t, exec (.linkTrainingDone p tx rx) s = .next t ∧ t.mem = s.mem
          ∧ t.lstate d k = (if 16 ≤ popCount 18 tx.toNat ∧ 16 ≤ popCount 18 rx.toNat then 2 else 4) ∧ t.lstate e q = t.lstate d k)
        ∧ (∀ lane : Fin 18, s.lstate d k = 2 → s.rfld d (lnkPage k) Off.lnkCfg 8 8 < smGet (fun _ => 0) (s.port d k).laneErr lane.val →
          (lanesInUse (s.port d k).good).1.testBit lane.val = true →
          ((lanesInUse (s.port d k).good).2 = 0 → ∃ t, exec (.laneSwap p lane) s = .next t ∧ { t with regs := s.regs } = s
            ∧ (t.reg d (lnkPage k) Off.stat).getLsbD 20 = true)
          ∧ ((lanesInUse (s.port d k).good).2 ≠ 0 → ∃ t, exec (.laneSwap p lane) s = .next t ∧ t.mem = s.mem
            ∧ t.lstate d k = 3 ∧ t.lstate e q = 3 ∧ (t.port d k).good = (s.port d k).good - 2 ^ lane.val ∧ (t.port d k).swapping = true))
        ∧ (s.lstate d k = 3 → ∃ t, exec (.laneSwapDone p) s = .next t ∧ t.mem = s.mem ∧ t.lstate d k = 2 ∧ t.lstate e q = 2
          ∧ (t.reg d (lnkPage k) Off.irqStat).getLsbD 17 = true ∧ (t.reg e (lnkPage q) Off.irqStat).getLsbD 17 = true
          ∧ ((s.port d k).swapping = true → (t.port d k).swapping = false
            ∧ (t.port e q).resend = (s.port e q).replay.head?.map (fun f => f.seq)))
        ∧ (∀ n : LinkNoise, s.lstate d k = 2 → (s.port d k).swapping = false →
          (s.nextFrame e q (s.rfld d (lnkPage k) Off.lnkCfg 0 6) = none → exec (.frameReceive p n) s = .next s)
          ∧ ∀ fr s2, s.nextFrame e q (s.rfld d (lnkPage k) Off.lnkCfg 0 6) = some (fr, s2) →
            let fs := withErrors fr.flits n.errors
            let counted := fun (t : State) => t.mem = s.mem
              ∧ t.reg d (lnkPage k) Off.lnkFeccor = satAdd (s.reg d (lnkPage k) Off.lnkFeccor) (n.corrected.take 18).sum
            (n.errors = [] → (s.port e q).resend = none → crcHolds fs = true ∧ fr.seq = (s.port e q).next)
              ∧ (crcHolds fs = true → leNat ((fs.getD 39 []).take 2) = (s.port d k).expect → ∃ t, exec (.frameReceive p n) s = .next t ∧ counted t
                ∧ (t.port d k).expect = ((s.port d k).expect + 1) % 65536
                ∧ t.reg d (lnkPage k) Off.lnkRxdata = satAdd (s.reg d (lnkPage k) Off.lnkRxdata) (frameData fs))
              ∧ (crcHolds fs = false → (s.port d k).fails < 15 → ∃ t, exec (.frameReceive p n) s = .next t ∧ counted t
                ∧ (t.port d k).expect = (s.port d k).expect ∧ t.reg d (lnkPage k) Off.lnkCrcerr = satAdd (s.reg d (lnkPage k) Off.lnkCrcerr) 1
                ∧ (fr.seq = (s.port d k).expect →
                  (t.port d k).naking = true ∧ (t.port d k).nakDue = true ∧ (t.port d k).fails = (s.port d k).fails + 1)))

/-- The fabric manager (R281, R282, R284, R285): a fence request or a readmission is taken up, or refused with 0x0A32, 0x0A21 or
0x0A20; a fenced Bench goes quiet, and an ENTER without an answer ends with the Bench marked fenced. -/
def Obligations.FenceRequestsAct : Prop :=
  ∀ (a : Agent) (v : Word) (s : State), s.Accepts a 20 0x80 Off.lnkFence →
    let b := (v.extractLsb' 0 5).toNat
    let st := s.fstat 0 3
    let marked := (s.fstat 16 16).testBit b
    (v.getLsbD 31 = true → v.getLsbD 9 = false → v.getLsbD 8 = false → ∃ t, exec (.lnkFence a v) s = .next t ∧ t.mem = s.mem
        ∧ (st = 1 ∨ st = 3 → t.reg 20 0x80 Off.refuse = 0x6FFF0A32 ∧ t.fstat 0 3 = st)
        ∧ (st ≠ 1 → st ≠ 3 → 16 ≤ b ∨ s.isRetired b = true ∨ marked = true → t.reg 20 0x80 Off.refuse = 0x6FFF0A21 ∧ t.fstat 0 3 = st)
        ∧ (st ≠ 1 → st ≠ 3 → b < 16 → s.isRetired b = false → marked = false → s.fenceCuts b = true →
          t.reg 20 0x80 Off.refuse = 0x5FFF0A20 ∧ t.fstat 0 3 = st)
        ∧ (st ≠ 1 → st ≠ 3 → b < 16 → s.isRetired b = false → marked = false → s.fenceCuts b = false →
          t.fstat 0 3 = 1 ∧ t.fstat 3 5 = b ∧ t.fstat 8 1 = 0))
      ∧ (v.getLsbD 31 = true → v.getLsbD 9 = true → ∃ t, exec (.lnkReadmit a v) s = .next t
        ∧ (st = 1 ∨ st = 3 → t.reg 20 0x80 Off.refuse = 0x6FFF0A32 ∧ t.fstat 0 3 = st)
        ∧ (st ≠ 1 → st ≠ 3 → b < 16 → s.isRetired b = false → marked = true →
          t.fstat 0 3 = 3 ∧ t.fstat 3 5 = b ∧ (t.bench b).fenced = (s.bench b).fenced ∧ t.core (16 * b) = Core.empty))
      ∧ (st = 2 → s.inTransit (s.fstat 3 5) = false → ∃ t, exec .fenceQuiet s = .next t ∧ { t with regs := s.regs } = s ∧ t.fstat 9 1 = 1)
      ∧ (s.inTransit (s.fstat 3 5) = true → exec .fenceQuiet s = .next s)
      ∧ (st = 1 → s.fstat 8 1 = 1 → s.fm.after ≠ 1 → ∃ t, exec .fenceEnterTimeout s = .next t ∧ t.mem = s.mem
        ∧ t.fstat 0 3 = 2 ∧ ((s.fstat 3 5) < 16 → (t.fstat 16 16).testBit (s.fstat 3 5) = true)
        ∧ (t.reg 20 0x80 Off.irqStat).getLsbD 19 = true)

/-! ### The Molt and speculation -/

/-- LSEL opens a pass, and a layer outside the table raises 0x0C06 (R316); a pass closes when all its elements are through
(R316); a chunk without a layer is dropped and counted, one of the open layer gives its elements (R318). -/
def Obligations.MoltPassesAndChunks : Prop :=
  ∀ (b : BenchId) (k : Fin 8) (w : Word) (g : GChunk) (s : State),
    let c := CoreId.strand b k
    let v := (s.readG c (aOf w)).toNat
    let n := layerCnt (s.bench b).molt.entry
    (s.StandsOn c w → opOf w = 0x0D → w.extractLsb' 17 15 = 0x1040#15 →
        (v % 4096 < (s.reg b 0x90 Off.mltLnum).toNat → v.testBit 12 = false → s.passOpen b = false →
          layerBad (s.layerEntry b (v % 4096)) = false → ∃ t, exec (.lselWrite c) s = .next t ∧ t.mem = s.mem
            ∧ t.reg b 0x90 Off.mltLsel = w32 (0x80000000 + v % 4096) ∧ (t.bench b).molt.entry = s.layerEntry b (v % 4096)
            ∧ (t.core (coreKey c)).pc = (s.core (coreKey c)).pc + 4 ∧ (t.core (coreKey c)).access = [])
        ∧ ((s.reg b 0x90 Off.mltLnum).toNat ≤ v % 4096 → ∃ t, exec (.lselWrite c) s = .next t ∧ s.Raises t c 0x0C06 0 false))
      ∧ (s.passOpen b = true → s.pass2 b = false → (n ≤ (s.bench b).molt.popped → ∃ t, exec (.passClose b) s = .next t ∧ t.mem = s.mem
            ∧ t.passOpen b = false ∧ smGet (fun _ => false) (t.bench b).molt.pass1 (s.rfld b 0x90 Off.mltLsel 0 12) = true)
          ∧ ((s.bench b).molt.popped < n → exec (.passClose b) s = .next s))
      ∧ (s.en b 0x90 = true → (s.bench b).molt.chunks.find? (fun x => (s.chunkTaken b x).isSome) = some g →
        ∃ t, exec (.moltChunkTake b) s = .next t ∧ t.mem = s.mem ∧ (t.bench b).molt.chunks = (s.bench b).molt.chunks.erase g
          ∧ t.reg b 0x90 Off.mltChunk = satAdd (s.reg b 0x90 Off.mltChunk) 1
          ∧ ((s.reg b 0x90 Off.mltLnum).toNat ≤ g.ltag → g.vals ≠ [] →
            t.reg b 0x90 Off.mltGdrop = satAdd (s.reg b 0x90 Off.mltGdrop) g.vals.length)
          ∧ ∀ xs, s.chunkTaken b g = some xs → ∀ x ∈ xs, smGet (fun _ => none) (t.bench b).molt.grad x.1 = some x.2)

/-- A task's GUARD, ABORT, verdict, drain and stall (R324 to R328), while no transfer runs in the Bench: a clean verdict commits, after
which every agent reads the held bytes (R326; that memory takes them at once is DEDUCED, log entry 75), an unclean one discards, as an
abort and a stall that lasts do, and the drain ends. -/
def Obligations.SpeculativeTasksEnd : Prop :=
  ∀ (u : UnitId) (e : QEntry) (rest : List QEntry) (k : Task) (s : State),
    let b := u.bench
    let f := u.unit.val
    let dropped := fun (t : State) (code : Nat) => t.taskState b = 3 ∧ t.mem = s.mem
      ∧ t.reg b 0x98 Off.spcDisc = satAdd (s.reg b 0x98 Off.spcDisc) 1 ∧ (t.reg b 0x98 Off.irqStat).getLsbD 17 = true ∧ (t.bench b).held = []
      ∧ ((s.reg b 0x98 Off.spcTlog).getLsbD 31 = false → t.reg b 0x98 Off.spcTlog = w32 (0x80000000 + code))
    (s.bench b).task = some k → k.owner = f → k.ending = none → (s.bench b).jobs = [] →
      ((s.face b f).qTask = e :: rest → s.waitOk b f e.words = true → s.tokenMode b f = false → s.taskBusy b f = false → s.en b 0x98 = true → lfLop e.words = 0x15 →
        s.taskState b = 1 →
        (lfImm e.words % 4 = 1 → k.grp = false → k.gclr = false →
          let dirty := (guardSources k.gsrc).any (fun x => s.rfld b x.1 x.2 0 3 &&& k.gbit != 0)
          ∃ t, exec (.guard u) s = .next t ∧ t.mem = s.mem ∧ (t.face b f).qTask = rest ∧ t.taskState b = 1
            ∧ (t.bench b).task = some { k with guard := some e, unclean := dirty, resolved := true, faulted := false }
            ∧ (t.reg b 0x98 Off.spcTstat).getLsbD 8 = dirty)
        ∧ (lfImm e.words % 4 = 2 → ∃ t, exec (.taskEndAbort u) s = .next t ∧ (t.face b f).qTask = rest ∧ dropped t 0x0C19))
      ∧ (k.guard = some e → k.resolved = true → s.taskState b = 1 →
        (k.unclean = false → k.sigs = [] → (∀ r ∈ heldRuns (s.bench b).held, locRegion r.1 = 4) → ∃ t, exec (.guardVerdict b) s = .next t
            ∧ t.taskState b = 2 ∧ t.mem = ((heldRuns (s.bench b).held).foldl (fun s r => s.putBytes r.1 r.2) s).mem
            ∧ t.reg b 0x98 Off.spcCommit = satAdd (s.reg b 0x98 Off.spcCommit) 1 ∧ (t.bench b).held = (s.bench b).held
            ∧ (t.reg b 0x98 Off.stat).getLsbD 17 = !(s.bench b).held.isEmpty ∧ (t.reg b 0x98 Off.irqStat).getLsbD 16 = true)
        ∧ (k.unclean = true → ∃ t, exec (.guardVerdict b) s = .next t ∧ dropped t (if k.faulted then 0x0C16 else 0x0C18)))
      ∧ (s.taskState b = 2 → (s.reg b 0x98 Off.stat).getLsbD 17 = true → ∃ t, exec (.specDrainDone b) s = .next t
          ∧ (t.bench b).held = [] ∧ (t.reg b 0x98 Off.stat).getLsbD 17 = false ∧ t.taskState b = 2 ∧ t.mem = s.mem)
      ∧ (s.rfld b 0x98 Off.spcCfg 0 16 ≠ 0 → (s.reg b 0x98 Off.stat).getLsbD 18 = true → s.taskState b = 1 →
        ∃ t, exec (.specStallTimeout b) s = .next t ∧ dropped t 0x0C15 ∧ (t.reg b 0x98 Off.stat).getLsbD 18 = false)

/-! ### The command engine -/

/-- The doorbells, the fetch, a header, a host read that fails, a completion, its interrupt and the timeout of a ring (R342 to
R346, R348, R351, R359). -/
def Obligations.RingsFetchAndComplete : Prop :=
  ∀ (r : RingId) (v : Word) (c : Cmd) (e : CmdEnd) (rest : List Cmd) (data : List Byte) (s : State),
    let n := r.val
    let p := ringPage n
    (s.bellOk n = true → v ≠ s.reg 20 p Off.cmdSqtail → (s.ring n).phase ≠ 2 →
        (ahead v.toNat (s.rg n Off.cmdSqhead) ≤ s.sqUnits n → ∃ t, exec (.sqTail r v) s = .next t ∧ { t with regs := s.regs } = s
            ∧ t.reg 20 p Off.cmdSqtail = v)
          ∧ (s.sqUnits n < ahead v.toNat (s.rg n Off.cmdSqhead) → ∃ t, exec (.sqTail r v) s = .next t ∧ t.ringHalted n = true
            ∧ t.reg 20 p Off.cmdSqtail = s.reg 20 p Off.cmdSqtail))
      ∧ (s.bellOk n = false → ∃ t, exec (.sqTail r v) s = .next t ∧ { t with regs := s.regs } = s
        ∧ t.reg 20 2 Off.wbgDwcnt = satAdd (s.reg 20 2 Off.wbgDwcnt) 1 ∧ t.reg 20 p Off.cmdSqtail = s.reg 20 p Off.cmdSqtail)
      ∧ (s.bellOk n = true → v ≠ s.reg 20 p Off.cmdCqhead → (s.ring n).phase ≠ 2 → (s.ring n).ready = [] →
        ahead v.toNat (s.rg n Off.cmdCqhead) ≤ ahead (s.rg n Off.cmdCqtail) (s.rg n Off.cmdCqhead) →
          ∃ t, exec (.cqHead r v) s = .next t ∧ { t with regs := s.regs } = s ∧ t.reg 20 p Off.cmdCqhead = v)
      ∧ (let reads := fun (t : State) (m : Nat) => (t.ring m).phase = 1 ∧ t.mem = s.mem ∧ t.regs = s.regs
            ∧ t.hostOut = s.hostOut ++ (s.unitReads m 0 1).map (fun x => .read x.1 x.2)
        (s.canFetch 0 = true → ∃ t, exec .commandFetch s = .next t ∧ reads t 0 ∧ t.turn = s.turn)
        ∧ (s.canFetch 0 = false → 0 < s.turn.2 → s.canFetch s.turn.1 = true → ∃ t, exec .commandFetch s = .next t
          ∧ reads t s.turn.1 ∧ t.turn = (s.turn.1, s.turn.2 - 1))
        ∧ ∀ m, s.canFetch 0 = false → s.turn.2 = 0 → ((List.range 64).map (fun i => (s.turn.1 + i) % 64 + 1)).find? s.canFetch = some m →
          ∃ t, exec .commandFetch s = .next t ∧ reads t m ∧ t.turn = (m, s.rfld 20 (ringPage m) Off.cmdSqcfg 8 8 - 1))
      ∧ ((s.ring n).phase = 1 → data.length = 64 → (s.ring n).ready = [] →
        (n = 0 → s.headerCode 0 data = 0 → hPlen data = 0 → s.rg 0 Off.cmdSqtail ≠ s.rg 0 Off.cmdSqhead →
          ∃ t, exec (.hostReadCompletion r data) s = .next t ∧ (t.ring 0).ready = [⟨data, [], 0⟩] ∧ (t.ring 0).phase = 0
            ∧ t.reg 20 p Off.cmdSqhead = s.reg 20 p Off.cmdSqhead + 1 ∧ t.mem = s.mem)
        ∧ (s.headerCode n data = 0x0D01 → ∃ t, exec (.hostReadCompletion r data) s = .next t ∧ t.ringHalted n = true
          ∧ t.reg 20 p Off.cmdSqhead = s.reg 20 p Off.cmdSqhead))
      ∧ (∀ f, (s.ring n).phase = 1 → (s.reg 20 p Off.cmdErr).getLsbD 31 = false → ∃ t, exec (.hostReadTimeout r f) s = .next t
        ∧ t.ringHalted n = true ∧ (t.ring n).phase = 0 ∧ t.reg 20 p Off.cmdErr = (if f = .timedOut then 0x80000D41 else 0x80000D40)
        ∧ t.mem = s.mem)
      ∧ ((s.ring n).run = c :: rest → c.ended = some e → c.filled = false → (∀ x ∈ rest, x.filled = false ∧ x.slot ≠ c.slot) →
        (∀ m, (s.ring m).ready = [] ∧ (s.ring m).phase ≠ 2) → ∃ t, exec (.commandComplete r 0) s = .next t ∧ (t.ring n).run = rest
          ∧ t.reg 20 p Off.cmdCqtail = w32 (s.rg n Off.cmdCqtail + c.units) ∧ t.reg 20 p Off.cmdDone = satAdd (s.reg 20 p Off.cmdDone) 1
          ∧ t.mem = s.mem)
      ∧ ((s.ring n).run = c :: rest → c.ended = none → c.aborting = false → s.rfld 20 p Off.cmdTout 0 16 ≠ 0 →
        ∃ t c' e', exec (.commandTimeout r 0) s = .next t ∧ { t with rings := s.rings } = s ∧ c' ∈ (t.ring n).run ∧ c'.slot = c.slot
          ∧ c'.ended = some e' ∧ e'.status = 7 ∧ e'.code = 0x0D50)
      ∧ ((s.ring n).timing = true → ∃ t, exec (.cqIrqCoalesceTimer r) s = .next t ∧ (t.ring n).timing = false ∧ (t.ring n).irqs = 0
        ∧ t.mem = s.mem ∧ (s.vectorMasked (s.rfld 20 p Off.cmdCqcfg 8 7) = false →
          ∃ x y, HostEvent.message (s.rfld 20 p Off.cmdCqcfg 8 7) x y ∈ t.hostOut))

/-- The commands of the host (R349, R350, R352): each starts the packet at its ring's head, takes its effect, and ends with its
status, or waits for what ends it; the samples of a TIMESNAP. -/
def Obligations.HostCommandsAct : Prop :=
  ∀ (r : RingId) (p : CmdPacket) (rest : List CmdPacket) (s : State),
    let n := r.val
    let h := p.header
    let b := hAnchor h
    let s1 := s.beginCmd n p none
    let us := (bitList 16 (hBench h)).flatMap (fun b => (bitList 7 (hArg h 0 1)).map (fun u => (b, u)))
    let runs := fun (t : State) (q : Cmd → Prop) => (t.ring n).ready = rest
      ∧ ∃ c ∈ (t.ring n).run, c.slot = (s.ring n).freeSlot ∧ c.header = h ∧ q c
    let ends := fun (t : State) (st code : Nat) => runs t (fun c => ∃ e, c.ended = some e ∧ e.status = st ∧ e.code = code)
    let moves := fun (i : Instr) (w : Ans) => s.en b 0x66 = true →
      (w.code = 0 → ∃ t, exec i s = .next t ∧ t.mem = w.st.mem
          ∧ runs t (fun c => ∃ e, c.ended = some e ∧ e.status = 0 ∧ e.code = 0 ∧ e.payload = w.data))
        ∧ (0 < w.code → w.code < waitCode → ∃ t, exec i s = .next t ∧ t.mem = w.st.mem ∧ ends t 3 w.code)
        ∧ (waitCode ≤ w.code → ∃ t, exec i s = .next t ∧ t.mem = s.mem ∧ t.rings = s.rings)
    ((s.ring n).ready = p :: rest → p.code = 0 → s.mayStart n p = true →
      (hType h = 0x01 → ∃ t, exec (.nop r) s = .next t ∧ ends t 0 0 ∧ { t with rings := s.rings } = s)
        ∧ (hType h = 0x02 → moves (.writeCmd r) (s1.vwrite b 6 6 (hArg h 0 8) p.payload)
          ∧ (s.en b 0x66 = false → ∃ t, exec (.writeCmd r) s = .next t ∧ ends t 3 0x080D ∧ t.mem = s.mem))
        ∧ (hType h = 0x03 → moves (.readCmd r) (s1.vread b 6 6 (hArg h 0 8) (hArg h 8 4))
          ∧ (s.en b 0x66 = false → ∃ t, exec (.readCmd r) s = .next t ∧ ends t 3 0x080D ∧ t.mem = s.mem))
        ∧ (hType h = 0x04 → ∃ t, exec (.code r) s = .next t ∧ ends t 0 0
          ∧ t.mem = (us.foldl (fun s x => s.writeInstr (loc 5 x.1 x.2 (hArg h 1 1 * 0x20000 + hArg h 4 4)) p.payload) s).mem)
        ∧ (∀ x u, hType h = 0x05 → us = [(x, u)] → hArg h 1 1 = 0 →
          ((s.face x u).parked = true → s.excValid x u = false → (s.face x u).swap = none → s.qsc x (ctlPage u) = false →
            ∃ t, exec (.run r) s = .next t ∧ (t.face x u).parked = false ∧ t.mem = s.mem
              ∧ runs t (fun c => c.ended = none ∧ c.work = hBench h))
          ∧ ((s.face x u).parked = false → ∃ t, exec (.run r) s = .next t ∧ ends t 1 0x0209 ∧ t.faces = s.faces))
        ∧ (hType h = 0x06 → let w := w32 (hArg h 0 4)
          (rsigMalformed w = true → ∃ t, exec (.signal r) s = .next t ∧ ends t 1 0x0309 ∧ t.fabric = s.fabric ∧ t.ports = s.ports)
          ∧ (rsigMalformed w = false → s.benchCtx (wfld w 0 5) = n → s.isRetired (wfld w 0 5) = false → s.uncoreOn (wfld w 0 5) = true →
            s.fencedOut (wfld w 0 5) = false → ∃ t, exec (.signal r) s = .next t
              ∧ s.Sends t (s.rsigPacket 20 w (signalTag n (s.ring n).freeSlot) true)
              ∧ runs t (fun c => c.ended = none ∧ c.work = 2 ^ wfld w 0 5)))
        ∧ (hType h = 0x07 → ∃ t, exec (.timesnap r) s = .next t ∧ t.mem = s.mem ∧ t.regs = s.regs
          ∧ runs t (fun c => smGet (fun _ => 0) c.samples 20 = s.dieTime 20 ∧ ∀ d ∈ c.asked, d < 20)))
      ∧ ∀ (d : DieId) (c : Cmd),
        (s.oldestCmd (fun c => c.asked.contains d.val) = some c → ∃ t c', exec (.sampleRequest d) s = .next t
            ∧ { t with rings := s.rings } = s ∧ c' ∈ (t.ring 0).run ∧ c'.slot = c.slot ∧ c'.asked = c.asked.erase d.val
            ∧ smGet (fun _ => 0) c'.samples d.val = s.dieTime d.val)
          ∧ (s.oldestCmd (fun c => c.awaited.contains d.val && !c.asked.contains d.val) = some c → c.awaited = [d.val] → c.ended = none →
            c.aborting = false → ∃ t c' e, exec (.timesnapSampleReturn d) s = .next t ∧ { t with rings := s.rings } = s
              ∧ c' ∈ (t.ring 0).run ∧ c'.slot = c.slot ∧ c'.ended = some e ∧ e.status = 0
              ∧ e.payload = (List.range 23).flatMap (fun i => leBytes 8 (smGet (fun _ => 0) c.samples i)))

/-! ### Carapace -/

/-- The context commands, KEYX, QUOTE and EXPORT (R365, R368, R370, R371, R374): each changes the state of its context and
completes; a Bench that changes context is disabled, changes its owner and has its Face stores cleared; a failed one ends with
CODE 0x0D0A (R366). -/
def Obligations.TenantCommandsAct : Prop :=
  ∀ (r : RingId) (p : CmdPacket) (rest : List CmdPacket) (s : State),
    let n := r.val
    let h := p.header
    let c := hArg h 0 1
    let b := hAnchor h
    let s2 := (s.beginCmd n p none).bump 21 0 Off.carOps 1
    let runs := fun (t : State) (q : CmdEnd → Prop) => ∃ x ∈ (t.ring n).run, x.slot = (s.ring n).freeSlot ∧ x.header = h
      ∧ ∃ e, x.ended = some e ∧ q e
    let done := fun (t : State) => runs t (fun e => e.status = 0 ∧ e.code = 0)
    let fails := fun (t : State) (code : Nat) => t.mem = s.mem ∧ runs t (fun e => e.status = 1 ∧ e.code = 0x0D0A ∧ e.info = code)
      ∧ ((s.reg 21 0 Off.carErr).getLsbD 31 = false → t.reg 21 0 Off.carErr = w32 (0x80000000 + code))
    (s.ring n).ready = p :: rest → p.code = 0 → s.mayStart n p = true → s.carapace.mail = none →
      (hType h = 0x10 → (1 ≤ c → c ≤ 64 → s.ctxState c = 0 → hArg h 1 1 = 0 → s.drbgFailed = false → ∃ t, exec (.create r) s = .next t
            ∧ done t ∧ t.ctxState c = 1 ∧ t.plainExp c = false ∧ (t.ctxKeys c).session = false ∧ s.fresh < smGet (fun _ => 0) t.keyGen c)
          ∧ (c = 0 ∨ 64 < c → ∃ t, exec (.create r) s = .next t ∧ fails t 0x0E01))
        ∧ (∀ x : BenchId, hType h = 0x11 → 1 ≤ c → c ≤ 64 → s.ctxState c = 1 ∨ s.ctxState c = 3 → bitList 16 (hArg h 2 2) = [x.val] →
          s.isRetired x = false → s.fencedOut x = false → s.uncoreOn x = true → s.benchCtx x = 0 →
            ∃ t, exec (.assign r) s = .next t ∧ done t ∧ t.benchCtx x = c
              ∧ (∀ q ∈ contextPages, t.en x q = false ∧ t.reg x q Off.owner = 1)
              ∧ ∀ u < 6, ∀ a < 2 ^ 40, t.byteAt (fsLoc x u a) = 0)
        ∧ (hType h = 0x12 → 1 ≤ c → c ≤ 64 → s.ctxState c = 1 ∨ s.ctxState c = 3 →
          ((s.ctxKeys c).session = true → ∃ t, exec (.start r) s = .next t ∧ done t ∧ t.ctxState c = 2 ∧ t.mem = s.mem)
          ∧ ((s.ctxKeys c).session = false → ∃ t, exec (.start r) s = .next t ∧ fails t 0x0E08))
        ∧ (hType h = 0x13 → 1 ≤ c → c ≤ 64 → c ≠ n → s.ctxState c = 2 → ∃ t, exec (.stop r) s = .next t ∧ done t ∧ t.ctxState c = 3
          ∧ ∀ x ∈ s.benchesOf c, ∀ u < 7, (t.face x u).parked = true)
        ∧ (hType h = 0x14 → 1 ≤ c → c ≤ 64 → c ≠ n → s.ctxState c = 1 ∨ s.ctxState c = 3 → ∃ t, exec (.destroy r) s = .next t ∧ done t
          ∧ t.ctxState c = 0 ∧ (t.ctxKeys c).session = false ∧ s.fresh < smGet (fun _ => 0) t.keyGen c)
        ∧ (hType h = 0x18 → s.ctxState n = 1 → (s.ctxKeys n).session = false → s.drbgFailed = false →
          ((ecPoint (p.payload.take 64)).isSome = true → (ecPoint ((p.payload.drop 64).take 64)).isSome = true → ∃ t, exec (.keyx r) s = .next t
            ∧ done t ∧ (t.ctxKeys n).session = true ∧ (t.ctxKeys n).texp = (p.payload.drop 64).take 64 ∧ (t.ctxKeys n).panelCtr = 0
            ∧ t.reg 20 (ringPage n) Off.cmdNctrLo = 0 ∧ t.reg 21 0x18 Off.carKeyxn = satAdd (s.reg 21 0x18 Off.carKeyxn) 1)
          ∧ (ecPoint (p.payload.take 64) = none → ∃ t, exec (.keyx r) s = .next t ∧ fails t 0x0E05))
        ∧ (hType h = 0x19 → ∃ t sig, exec (.quote r) s = .next t ∧ t.mem = s.mem
          ∧ runs t (fun e => e.status = 0 ∧ e.payload = s.quoteBody n p.payload ++ sig)
          ∧ t.reg 21 0x10 Off.carQuotes = satAdd (s.reg 21 0x10 Off.carQuotes) 1)
        ∧ (hType h = 0x1A → s.ctxState n = 2 → hArg h 8 4 ≤ 262048 → s.plainExp n = true →
          let w := s2.vread b 6 6 (hArg h 0 8) (hArg h 8 4)
          (s.fuses.pelock = false → s.en b 0x66 = true → w.code = 0 → ∃ t, exec (.exportData r) s = .next t ∧ t.mem = w.st.mem
            ∧ runs t (fun e => e.status = 0 ∧ e.payload = exportBlob (s.ctxKeys n) ((s.ctxKeys n).eseq + 1) w.st.fresh true w.data))
          ∧ (s.fuses.pelock = true → ∃ t, exec (.exportData r) s = .next t ∧ fails t 0x0E09))

/-- Carapace takes the pending fuse request of each operation (R367, R377, R379): it refuses it with a code, or appends its log
entry and programs; the verified setting is in force with DONE set, and one that fails ends with 0x0E27 (R376, R378). -/
def Obligations.FuseRequestsProgram : Prop :=
  ∀ (m : Mailbox) (s : State), s.carapace.mail = some m →
    let a := m.arg0
    let takes := fun (i : Instr) (op : Nat) => m.op = op → s.carapace.fusing = false →
      (s.mailCode m = 0 → ∃ (t : State) (e : DWord), exec i s = .next t ∧ t.fuses = { s.fuses with log := s.fuses.log ++ [e] }
          ∧ e.getLsbD 6 = false ∧ t.carapace = { s.carapace with fusing := true } ∧ t.mem = s.mem)
        ∧ (s.mailCode m ≠ 0 → ∃ t : State, exec i s = .next t ∧ t.fuses = s.fuses ∧ t.carapace.mail = none
          ∧ t.rfld 21 0 Off.carMbstat 0 16 = s.mailCode m ∧ (t.reg 21 0 Off.irqStat).getLsbD 17 = true ∧ t.mem = s.mem)
    takes .ratchet 1 ∧ takes .ownprog 2 ∧ takes .ownrev 3 ∧ takes .retire 4 ∧ takes .colbyp 5 ∧ takes .hbmrep 6 ∧ takes .pelock 7
      ∧ (s.carapace.fusing = true → ∃ t, exec (.fuseProgramDone true) s = .next t ∧ t.carapace.mail = none ∧ t.carapace.fusing = false
        ∧ t.rfld 21 0 Off.carMbstat 0 16 = 0 ∧ t.mem = s.mem
        ∧ (∀ l e, s.fuses.log = l ++ [e] → t.fuses.log = l ++ [e ||| 0x40])
        ∧ (m.op = 1 → t.fuses.svn = a) ∧ (m.op = 2 → t.fuses.slot a = (1, sha256 m.nkey)) ∧ (m.op = 3 → (t.fuses.slot a).1 = 2)
        ∧ (m.op = 4 → t.fuses.retire = s.fuses.retire ||| 2 ^ a) ∧ (m.op = 7 → t.fuses.pelock = true)
        ∧ (m.op = 5 → let k := fld a 0 5 * 32 + fld a 8 5
          smGet (fun _ => []) t.fuses.colByp k = smGet (fun _ => []) s.fuses.colByp k ++ [(fld a 16 6, true)])
        ∧ (m.op = 6 → let k := fld a 0 5 * 2 + fld a 8 1
          smGet (fun _ => []) t.fuses.hbmRep k = smGet (fun _ => []) s.fuses.hbmRep k ++ [(fld a 12 4, fld a 16 8, fld a 24 1, true)]))
      ∧ (s.carapace.fusing = true → ∃ t, exec (.fuseProgramDone false) s = .next t ∧ t.carapace.mail = none
        ∧ t.rfld 21 0 Off.carMbstat 0 16 = 0x0E27 ∧ t.fuses.log = s.fuses.log ∧ t.mem = s.mem)

/-! ### Safety, boot and the sideband -/

/-- The mailbox of the Safety Partition (R408, R409, R411, R420, R421): each request that fails its checks ends with their code;
one that passes acts and ends with code 0, or begins a domain switch, which ends with the domain's bit. -/
def Obligations.SafetyRequestsAct : Prop :=
  ∀ (m : Mailbox) (s : State), s.safety.mail = some m → s.safety.switching = [] →
    let a := m.arg0
    let ended := fun (t : State) (code : Nat) => t.safety.mail = none ∧ t.rfld 22 8 Off.safMbstat 0 16 = code
      ∧ (t.reg 22 0 Off.irqStat).getLsbD 19 = true
    let refused := fun (i : Instr) (op : Nat) => m.op = op → s.smbCode m ≠ 0 → ∃ t : State, exec i s = .next t ∧ ended t (s.smbCode m) ∧ t.mem = s.mem
    let acts := fun (i : Instr) (op : Nat) (q : State → Prop) => m.op = op → s.smbCode m = 0 → ∃ t : State, exec i s = .next t ∧ ended t 0 ∧ q t
    (refused .domOn 1 ∧ refused .domOff 2 ∧ refused .benchReset 3 ∧ refused .setFreq 4 ∧ refused .wdArm 5 ∧ refused .wdKick 6
        ∧ refused .faultClr 7)
      ∧ (m.op = 1 → s.smbCode m = 0 → ∃ t, exec .domOn s = .next t ∧ t.mem = s.mem ∧ (s.domOn a = true → ended t 0)
        ∧ (s.domOn a = false → t.safety = { s.safety with switching := [(a, true)] }))
      ∧ (m.op = 2 → s.smbCode m = 0 → ∃ t, exec .domOff s = .next t ∧ t.mem = s.mem ∧ (s.domOn a = false → ended t 0)
        ∧ (s.domOn a = true → t.safety = { s.safety with switching := [(a, false)] }))
      ∧ acts .benchReset 3 (fun t => t.core (a * 16) = Core.empty ∧ (t.reg 22 0x38 Off.safBreset).getLsbD a = true)
      ∧ acts .setFreq 4 (fun t => t.mem = s.mem ∧ ∀ b < 16, a.testBit b = true → t.mailCeil b = m.arg1)
      ∧ acts .wdArm 5 (fun t => t.mem = s.mem ∧ t.rfld 22 0x28 Off.safWdcfg 0 24 = a ∧ t.reg 22 0x28 Off.safWdrem = w32 a
        ∧ (t.reg 22 0x28 Off.safWdcfg).getLsbD 31 = decide (a ≠ 0) ∧ t.safety.expired = false)
      ∧ acts .wdKick 6 (fun t => t.mem = s.mem ∧ t.reg 22 0x28 Off.safWdrem = w32 (s.rfld 22 0x28 Off.safWdcfg 0 24) ∧ t.safety.expired = false)
      ∧ acts .faultClr 7 (fun t => t.mem = s.mem ∧ (t.reg 22 0 Off.stat).getLsbD 17 = false)
      ∧ ∀ on, m.op = (if on then 1 else 2) → s.safety.powering = false →
        let s1 := { s with safety := { s.safety with switching := [(a, on)] } }
        ∃ t, exec .domainSwitchDone s1 = .next t ∧ t.domOn a = on ∧ t.safety.switching = [] ∧ ended t 0

/-- The resets of the panel and the pins that cause them (R390, R415, R424 to R426): what input power, PERST_N, the 100 ms mark,
a hot reset and a function-level reset leave. -/
def Obligations.PanelResetsAct : Prop :=
  ∀ s : State,
    let caused := fun (t : State) (n : Nat) => t.reg 22 0x38 Off.safRcause = w32 n ∧ t.reg 22 0x38 Off.safRcnt = s.reg 22 0x38 Off.safRcnt + 1
    (s.safety.inputOk = false → ∃ t, exec .inputInRange s = .next t ∧ t.safety.inputOk = true ∧ t.safety.perst = s.safety.perst
        ∧ t.domOn 47 = true ∧ (∀ n < 47, t.domOn n = false) ∧ t.safety.switching = [(44, true)] ∧ t.retired = s.fuses.retire)
      ∧ (s.safety.inputOk = true → ∃ t, exec .inputLost s = .next t ∧ t.safety.inputOk = false ∧ (∀ n < 48, t.domOn n = false)
        ∧ t.safety.perst = s.safety.perst ∧ t.rings = [] ∧ s.fuses.Keeps t.fuses)
      ∧ (s.safety.perst = false → s.safety.inputOk = true → ∃ t, exec .perstNAssert s = .next t ∧ t.safety.perst = true
        ∧ (t.reg 22 0 Off.stat).getLsbD 17 = false ∧ t.rings = [] ∧ t.msixOn = false ∧ t.boot.linkUp = false ∧ t.retired = s.fuses.retire
        ∧ (s.safety.powered = true → caused t 1))
      ∧ (s.safety.perst = true → s.safety.inputOk = true → (s.reg 22 0 Off.stat).getLsbD 16 = false →
        (s.domOn 44 = true → ∃ t, exec (.perstNRelease true true true) s = .next t ∧ t.boot.begun = true ∧ t.safety.perst = false ∧ t.side.drive = 0)
        ∧ (s.domOn 44 = true → ∃ t, exec (.perstNRelease true false true) s = .next t ∧ t.boot.state = 4 ∧ t.boot.code = 0x0F01
          ∧ (t.reg 22 0 Off.stat).getLsbD 17 = true)
        ∧ (∃ t, exec (.perstNRelease false true true) s = .next t ∧ t.boot.waiting = true ∧ t.safety.perst = false))
      ∧ (s.boot.waiting = true → s.domOn 44 = true → s.safety.perst = false → s.boot.rom = true → s.boot.drbg = true →
        ∃ t, exec .boot100MsMark s = .next t ∧ t.boot.begun = true ∧ t.boot.waiting = false ∧ t.mem = s.mem)
      ∧ (s.boot.linkUp = true → s.boot.rom = true → s.boot.drbg = true →
        (∃ t, exec .hotReset s = .next t ∧ t.boot.begun = true ∧ t.boot.linkUp = false ∧ t.rings = [] ∧ t.retired = s.retired ∧ caused t 2)
        ∧ ∃ t, exec .functionLevelReset s = .next t ∧ t.boot.begun = true ∧ t.boot.linkUp = true ∧ t.msixOn = false ∧ t.rings = []
          ∧ t.retired = s.retired ∧ caused t 3)

/-- Input, temperature, clock, brake and watchdog events (R414 to R416, R418 to R422): the readings are recorded, the ceilings
move by one step, a PLL that loses its lock takes its Bench's domains, the brake reaches every powered Bench, and the expiry of
the watchdog is recorded. -/
def Obligations.LimitsAndClocksAct : Prop :=
  ∀ (b : BenchId) (s : State),
    let fcur := fun (t : State) => t.rfld 22 0x30 (Off.safFcur + 4 * (b.val / 4)) (8 * (b.val % 4)) 8
    (∀ v i, s.safety.inputOk = true → s.pol 4 2 ≤ v → v ≤ s.pol 6 2 → i ≤ s.pol 2 2 → ∃ t, exec (.inputSample v i) s = .next t ∧ t.mem = s.mem
        ∧ t.reg 22 0x18 Off.safVin = w32 v ∧ t.safety.overTrip = 0 ∧ t.safety.outRange = 0)
      ∧ (∀ v i, s.safety.inputOk = true → s.pol 2 2 < i → s.safety.overTrip = 3 → (s.reg 22 0 Off.stat).getLsbD 16 = false →
        ∃ t, exec (.inputSample v i) s = .next t ∧ (t.reg 22 0 Off.stat).getLsbD 16 = true ∧ (t.reg 22 0 Off.stat).getLsbD 17 = true
          ∧ ∀ n < 47, t.domOn n = false)
      ∧ (s.pol 0 2 < (s.reg 22 0x18 Off.safIin).toNat → 6 < s.safety.curCeil → ∃ t, exec (.currentCeilingStep false) s = .next t ∧ t.mem = s.mem
        ∧ t.safety.curCeil + 1 = s.safety.curCeil ∧ t.reg 22 0x18 Off.safIstep = satAdd (s.reg 22 0x18 Off.safIstep) 1)
      ∧ (100 * (s.reg 22 0x18 Off.safIin).toNat < 95 * s.pol 0 2 → s.safety.curCeil < 18 → ∃ t, exec (.currentCeilingStep true) s = .next t
        ∧ t.mem = s.mem ∧ t.safety.curCeil = s.safety.curCeil + 1)
      ∧ (∀ (r : TempReading), s.safety.inputOk = true → sensorReal r.sensor = true → r.sensor.die.val = 20 ∨ s.uncoreOn r.sensor.die.val = true →
        ∃ t, exec (.tempSample [r]) s = .next t ∧ t.temp r.sensor = r.degC
          ∧ (s.tempLimit r.sensor 2 < r.degC → (t.reg 22 0 Off.stat).getLsbD 16 = true))
      ∧ (∀ x : SensorId, sensorReal x = true → x.die.val = b → s.temp x + 5 ≤ s.tempLimit x 1 → s.thermCeil b < 18 →
        ∃ t, exec (.thermalCeilingStep x) s = .next t ∧ t.mem = s.mem ∧ t.thermCeil b = s.thermCeil b + 1)
      ∧ (s.uncoreOn b = true → ∃ t, exec (.pllRampStep b) s = .next t ∧ { t with regs := s.regs } = s
        ∧ (fcur s < s.freqCeil b → fcur t = fcur s + 1) ∧ (s.freqCeil b < fcur s → fcur t + 1 = fcur s) ∧ (fcur s = s.freqCeil b → t = s))
      ∧ (s.domOn (16 + b) = true → ∃ t, exec (.pllLockLost b) s = .next t ∧ t.domOn b = false ∧ t.domOn (16 + b) = false
        ∧ (t.reg 22 0x30 Off.safPlllost).getLsbD b = true ∧ (t.reg 22 0 Off.stat).getLsbD 17 = true)
      ∧ (s.safety.brake = false → ∃ t, exec .pwrBrakeNAssert s = .next t ∧ t.safety.brake = true ∧ (t.reg 22 0 Off.stat).getLsbD 19 = true
        ∧ t.mem = s.mem ∧ (s.uncoreOn b = true → (t.bench b).braked = true))
      ∧ (s.safety.brake = true → ∃ t, exec .pwrBrakeNRelease s = .next t ∧ t.safety.brake = false ∧ (t.reg 22 0 Off.stat).getLsbD 19 = false
        ∧ t.mem = s.mem ∧ (s.uncoreOn b = true → (t.bench b).braked = false))
      ∧ (s.safety.brake = true → s.pol 0x1A 2 ≠ 0 → ∃ t, exec .brakeCap s = .next t ∧ { t with regs := s.regs, safety := s.safety } = s
        ∧ t.safety.brakeCap = true ∧ t.freqCeil b ≤ 12)
      ∧ (s.safety.brake = false → ∃ t, exec .brakeCapLift s = .next t ∧ { t with regs := s.regs, safety := s.safety } = s
        ∧ t.safety.brakeCap = false)
      ∧ ((s.reg 22 0x28 Off.safWdcfg).getLsbD 31 = true → s.safety.expired = false → ∃ t, exec .watchdogExpiry s = .next t ∧ t.mem = s.mem
        ∧ t.safety.expired = true ∧ t.reg 22 0x28 Off.safWdexp = satAdd (s.reg 22 0x28 Off.safWdexp) 1
        ∧ t.reg 22 0x28 Off.safWdrem = w32 (s.rfld 22 0x28 Off.safWdcfg 0 24))

/-- Boot and the firmware download (R272, R391, R394 to R396, R401 to R404, R410): discovery, the boot window, the chunks of the
bundle, the stages after it, the failures that stop boot, and READY. -/
def Obligations.BootGoesOn : Prop :=
  ∀ (rep : DiscoveryReport) (s : State),
    (s.booting = true → s.boot.found = false → ∃ t, exec (.discovery rep) s = .next t ∧ t.mem = s.mem
        ∧ (t.reg 20 0x80 Off.lnkDisc).getLsbD 17 = true
        ∧ t.rfld 20 0x80 Off.lnkDisc 0 8 = linkOrder.countP (fun x => t.lstate x.1 x.2 == 2)
        ∧ ((∀ q < 4, t.lstate 20 q ≠ 2) → t.boot.state = 4 ∧ t.boot.code = 0x0F10) ∧ ((∃ q < 4, t.lstate 20 q = 2) → t.boot.found = true))
      ∧ (∀ x16 speed, s.domOn 44 = true → s.domOn 45 = true → s.safety.perst = false → s.boot.linkUp = false →
        ∃ t, exec (.pcieLinkUp x16 speed) s = .next t ∧ t.mem = s.mem ∧ t.boot.linkUp = true
          ∧ (s.booting = true → s.boot.state = 0 → t.boot.state = 1 ∧ t.boot.stage = 4))
      ∧ (∀ off data, 0x90000 ≤ off → off < 0xB0000 → off % 4 = 0 →
        (s.boot.state = 1 → s.boot.lenA = 0 → exec (.bootBufferWrite off data true) s
            = .next (s.putBytes (bufLoc 0 (off - 0x90000)) (leBytes 4 data.toNat)))
        ∧ (s.boot.state ≠ 1 → ∃ t, exec (.bootBufferWrite off data true) s = .next t ∧ t.mem = s.mem
          ∧ t.boot.drop = min 0xFFFFFFFF (s.boot.drop + 1)))
      ∧ (∀ data : Word, s.boot.state = 1 → let seq := (data.extractLsb' 0 16).toNat; let len := (data.extractLsb' 17 12).toNat
        (seq = s.boot.next → data.getLsbD 16 = false → 1 ≤ len → len ≤ 2048 → s.chunkUnits 0 = len → s.boot.lenA = 0 →
          exec (.bootChunk data) s = .next { s with boot := { s.boot with lenA := len } })
        ∧ (seq ≠ s.boot.next → exec (.bootChunk data) s = .next { s with boot := { s.boot with code := 0x0F20 } }))
      ∧ (s.boot.state = 1 → 1 ≤ s.boot.lenA → s.boot.lenA ≤ 2048 →
        let lo := 131072 * s.boot.next
        let hi := lo + 64 * s.boot.lenA
        let t1 := s.putBytes (bundleLoc lo) (s.bytesAt (bufLoc 0 0) (64 * s.boot.lenA))
        (t1.checkChunk lo hi ≠ 0 → ∃ t, exec .chunkAccept s = .next t ∧ t.boot.state = 3 ∧ t.boot.code = t1.checkChunk lo hi
            ∧ (t.reg 20 8 Off.irqStat).getLsbD 17 = true)
          ∧ (t1.checkChunk lo hi = 0 → (∀ x ∈ t1.sections, x.kind ≠ 6) → ∃ t, exec .chunkAccept s = .next t ∧ t.mem = t1.mem
            ∧ t.boot.next = s.boot.next + 1 ∧ t.boot.bytes = hi ∧ t.boot.lenA = 0
            ∧ t.boot.state = if t1.bundleNat 8 4 ≤ hi then 2 else 1))
      ∧ (∀ data : Word, data.getLsbD 0 = true → s.boot.state = 3 → ∃ t, exec (.bootRetry data) s = .next t ∧ t.boot.state = 1 ∧ t.boot.next = 0
        ∧ t.boot.lenA = 0 ∧ t.boot.lenB = 0 ∧ t.regs = s.regs ∧ ∀ a < 2 ^ 40, t.byteAt (bundleLoc a) = 0)
      ∧ (s.boot.state = 2 →
        (s.boot.stage = 5 → ∃ t, exec .bootStage5 s = .next t ∧ t.boot.stage = 6 ∧ t.mem = s.mem)
        ∧ (s.boot.stage = 6 → let body := (s.sectionBytes 2).drop 0x80
          (policyOk body = true → ∃ t, exec .bootPolicyHandoff s = .next t ∧ t.boot.stage = 7 ∧ t.safety.policy = body ∧ t.mem = s.mem)
          ∧ (policyOk body = false → ∃ t, exec .bootPolicyHandoff s = .next t ∧ t.boot.state = 4 ∧ t.boot.code = 0x0F32
            ∧ t.safety.policy = s.safety.policy))
        ∧ (∀ f, s.boot.stage = 7 → s.boot.trained = true → ∃ t, exec (.bootBenchLoad f) s = .next t ∧ (t.boot.state = 4 ∨ t.boot.stage = 8))
        ∧ (s.boot.stage = 7 → s.boot.started = false → ∃ t, exec .firmwareStartTimeout s = .next t ∧ t.boot.state = 4 ∧ t.boot.code = 0x0F31
          ∧ (t.reg 22 0 Off.stat).getLsbD 17 = true)
        ∧ (s.boot.stage = 8 → ∃ t, exec .ready s = .next t ∧ t.boot.state = 5 ∧ t.reg 20 8 Off.wbgBstat = 1
          ∧ (t.reg 21 8 Off.carMcnt).getLsbD 31 = true ∧ (t.reg 20 8 Off.irqStat).getLsbD 16 = true ∧ t.mem = s.mem))

/-- The SMBus commands and the test port (R442 to R444): answers, the selection, the instruction register and the boundary-scan
cells; without the power that they need they are not answered, and change nothing. -/
def Obligations.SidebandAnswers : Prop :=
  ∀ s : State,
    let replies := fun (i : Instr) (side : Sideband) => exec i s = .next { s with side := side }
    let x := s.side
    (s.safety.inputOk = true →
        (replies .ident { x with answer := some (blockRead 0x01 (leBytes 2 0x1600 ++ leBytes 1 s.fuses.order ++ leBytes 2 s.retired ++ leBytes 3 0 ++ serial)) })
        ∧ replies .status { x with answer := some (leBytes 2 (s.rfld 22 0 Off.stat 16 5 + 256 * s.boot.state)) }
        ∧ (∀ d p lo hi : Byte, replies (.select [d, p, lo, hi] true) { x with die := d.toNat, page := p.toNat, off := lo.toNat + 256 * hi.toNat, answer := some [] })
        ∧ (∀ bs, replies (.select bs false) { x with answer := none })
        ∧ replies .smbRead { x with answer := some (blockRead 0x11 (leBytes 4 (s.sideReg 0).toNat)), off := (x.off + 4) % 65536 }
        ∧ replies .read8 { x with answer := some (blockRead 0x12 (leBytes 4 (s.sideReg 0).toNat ++ leBytes 4 (s.sideReg 4).toNat)), off := (x.off + 8) % 65536 })
      ∧ (s.safety.inputOk = false → ∀ i ∈ [Instr.ident, .status, .smbRead, .read8], replies i { x with answer := none })
      ∧ replies .smbusTimeout { x with answer := none }
      ∧ (s.domOn 44 = true → let held := fun n => if s.safety.perst then n else 0
        replies .extest { x with ir := 0x00, dr := 0, drive := held 1 } ∧ replies .clamp { x with ir := 0x03, dr := 0, drive := held 1 }
        ∧ replies .highz { x with ir := 0x04, dr := 0, drive := held 2 } ∧ replies .idcode { x with ir := 0x02, dr := 0x11600A35, drive := 0 }
        ∧ (∀ code : BitVec 8, 4 < code.toNat → replies (.bypass code) { x with ir := code, dr := 0, drive := 0 })
        ∧ replies .trstNAssert { x with ir := 0x02, dr := 0x11600A35, drive := 0 }
        ∧ ∀ pins pre, pins.length = 416 → replies (.samplePreload pins pre) { x with ir := 0x01, dr := 0, drive := 0, cells := pins })
      ∧ (s.domOn 44 = false → ∀ i ∈ [Instr.extest, .clamp, .highz, .idcode, .trstNAssert], exec i s = .next s)
      ∧ ∀ pins pre, pins.length ≠ 416 → exec (.samplePreload pins pre) s = .fault .malformedCommand

/-! ### Every command -/

/-- On an empty queue time passes (the model's choice, log entry 1): without input power nothing changes; with it, and with no fence under
way, cycle counters, time registers and stall counts move, the blocks send what has changed (R337), and nothing else changes. Every
well-formed command ends in a next state, and every other faults. No command touches the queue. -/
def Obligations.OnlyStepsTakeCommands : Prop :=
  (∀ s : State, s.pending = [] → (s.safety.inputOk = false → step s = .next s)
      ∧ (s.safety.inputOk = true → (∀ b < 16, (s.bench b).fencing = none) → ∃ t, step s = .next t
        ∧ { t with regs := s.regs, benches := s.benches, fresh := s.fresh, fabric := s.fabric, ports := s.ports } = s
        ∧ t.fresh = s.fresh + 1 ∧ (s.wbgRuns = true → t.dieTime 20 = (s.dieTime 20 + 1) % 2 ^ 64)
        ∧ ∀ b, { t.bench b with cycle := (s.bench b).cycle } = s.bench b))
    ∧ (∀ (c : Instr) (s : State), c.wellFormed = true → ∃ t, exec c s = .next t)
    ∧ (∀ (c : Instr) (s : State), c.wellFormed = false → exec c s = .fault .malformedCommand)
    ∧ ∀ (c : Instr) (s t : State), exec c s = .next t → t.pending = s.pending

/-- The machine right after reset: canonical, with an empty queue, nothing powered, every control core parked at 0 with clear
registers, and the built-in policy. -/
def Obligations.ResetIsCanonical : Prop :=
  State.reset.Canonical ∧ State.reset.pending = [] ∧ (∀ n, State.reset.domOn n = false) ∧ State.reset.safety.policy = builtinPolicy
    ∧ (∀ b u, (State.reset.face b u).parked = true ∧ (State.reset.face b u).queuesEmpty = true)
    ∧ ∀ k, (State.reset.core k).pc = 0 ∧ (State.reset.core k).gpr = []

/-- Every step keeps the stores that hold memory, registers and shadows in their canonical form. -/
def Obligations.CanonicalIsKept : Prop :=
  ∀ s t : State, s.Canonical → step s = .next t → t.Canonical

/-- No step takes back a lock, a retirement or a log entry of the fuses (R376, R377). -/
def Obligations.FusesNeverGoBack : Prop :=
  ∀ s t : State, step s = .next t → s.fuses.Keeps t.fuses
end

