-- ==== Sys2Proof/Laws/Sparse.lean ====
section
/-!
SUPPORT. The laws of the sparse stores: a read after a write, and that every operation keeps the canonical form.
-/

namespace Sys2Proof.Machine

variable {α : Type}

@[simp] theorem smGet_nil (d : Nat → α) (k : Nat) : smGet d [] k = d k := rfl

/-- A read after an insertion. -/
theorem smGet_smInsert (d : Nat → α) (m : SMap α) (k j : Nat) (v : α) :
    smGet d (smInsert m k v) j = if j = k then v else smGet d m j := by
  induction m with
  | nil => by_cases h : j = k <;> simp [smInsert, smGet, h]
  | cons e m ih =>
    obtain ⟨a, w⟩ := e
    simp only [smInsert]
    split
    · by_cases h : j = k <;> simp [smGet, h]
    · split
      · rename_i h1 h2
        subst h2
        by_cases h : j = k <;> simp [smGet, h]
      · rename_i h1 h2
        by_cases h : j = a
        · subst h
          have : ¬ j = k := fun x => h2 x.symm
          simp [smGet, this]
        · simp [smGet, h, ih]

/-- A read after an erasure. -/
theorem smGet_smErase (d : Nat → α) (m : SMap α) (k j : Nat) :
    smGet d (smErase m k) j = if j = k then d j else smGet d m j := by
  induction m with
  | nil => by_cases h : j = k <;> simp [smErase, smGet, h]
  | cons e m ih =>
    obtain ⟨a, w⟩ := e
    simp only [smErase] at ih
    by_cases ha : a = k
    · subst ha
      by_cases h : j = a
      · subst h; simpa [smErase, smGet] using ih
      · simp [smErase, smGet, h, ih]
    · by_cases h : j = a
      · subst h
        simp [smErase, smGet, ha]
      · by_cases hk : j = k <;> simp_all [smErase, smGet]

/-- A write erases or inserts. -/
theorem smSet_eq [DecidableEq α] (d : Nat → α) (m : SMap α) (k : Nat) (v : α) :
    smSet d m k v = if v = d k then smErase m k else smInsert m k v := by
  cases m <;> rfl

/-- A read after a write. -/
theorem smGet_smSet [DecidableEq α] (d : Nat → α) (m : SMap α) (k j : Nat) (v : α) :
    smGet d (smSet d m k v) j = if j = k then v else smGet d m j := by
  rw [smSet_eq]
  split
  · rename_i h
    rw [smGet_smErase]
    split
    · rename_i hj
      rw [h, hj]
    · rfl
  · exact smGet_smInsert d m k j v

@[simp] theorem smGet_smSet_self [DecidableEq α] (d : Nat → α) (m : SMap α) (k : Nat) (v : α) :
    smGet d (smSet d m k v) k = v := by simp [smGet_smSet]

theorem smGet_smSet_ne [DecidableEq α] (d : Nat → α) (m : SMap α) {k j : Nat} (v : α) (h : j ≠ k) :
    smGet d (smSet d m k v) j = smGet d m j := by simp [smGet_smSet, h]

/-- A read after a region is cleared. -/
theorem smGet_smClear (d : Nat → α) (m : SMap α) (p : Nat → Bool) (j : Nat) :
    smGet d (smClear m p) j = if p j = true then d j else smGet d m j := by
  induction m with
  | nil => by_cases h : p j = true <;> simp [smClear, smGet, h]
  | cons e m ih =>
    obtain ⟨a, w⟩ := e
    simp only [smClear] at ih
    by_cases ha : p a = true
    · simp only [smClear, List.filter_cons, ha, Bool.not_true, Bool.false_eq_true, if_false, ih, smGet]
      by_cases h : j = a
      · subst h; simp [ha]
      · simp [h]
    · simp only [smClear, List.filter_cons, ha, Bool.not_false, if_true, smGet, ih]
      by_cases h : j = a
      · subst h; simp [ha]
      · simp [h]

/-- A read after a list of writes at consecutive keys. -/
theorem smGet_smSetList [DecidableEq α] (d : Nat → α) (m : SMap α) (k : Nat) (vs : List α) (j : Nat) :
    smGet d (smSetList d m k vs) j = if k ≤ j ∧ j < k + vs.length then vs.getD (j - k) (d j) else smGet d m j := by
  induction vs generalizing m k with
  | nil =>
    have h : ¬ (k ≤ j ∧ j < k + ([] : List α).length) := by simp only [List.length_nil]; omega
    simp only [smSetList, h, if_false]
  | cons v vs ih =>
    simp only [smSetList, ih, smGet_smSet, List.length_cons]
    by_cases hj : j = k
    · subst hj
      have h : ¬ (j + 1 ≤ j ∧ j < j + 1 + vs.length) := by omega
      have h' : j ≤ j ∧ j < j + (vs.length + 1) := by omega
      simp only [h, h', if_true, if_false, and_self, Nat.sub_self, List.getD_cons_zero]
    · by_cases h : k + 1 ≤ j ∧ j < k + 1 + vs.length
      · have h' : k ≤ j ∧ j < k + (vs.length + 1) := by omega
        have e : j - k = (j - (k + 1)) + 1 := by omega
        simp only [h, h', if_true, and_self, e, List.getD_cons_succ]
      · have h' : ¬ (k ≤ j ∧ j < k + (vs.length + 1)) := by omega
        simp only [h, h', if_false, hj]

/-! ### The canonical form -/

/-- A lower bound may be lowered. -/
theorem smRising_weaken {m : SMap α} {lo : Option Nat} {a : Nat} (h : smRising (some a) m = true)
    (hl : match lo with | none => True | some l => l ≤ a) : smRising lo m = true := by
  cases m with
  | nil => rfl
  | cons e m =>
    obtain ⟨k, v⟩ := e
    simp only [smRising, Bool.and_eq_true, decide_eq_true_eq] at h ⊢
    refine ⟨?_, h.2⟩
    cases lo with
    | none => rfl
    | some l => simp only [decide_eq_true_eq]; have : l ≤ a := hl; omega

/-- A filter keeps keys rising. -/
theorem smRising_filter (p : Nat × α → Bool) : ∀ (m : SMap α) (lo : Option Nat), smRising lo m = true → smRising lo (m.filter p) = true := by
  intro m
  induction m with
  | nil => intro lo _; rfl
  | cons e m ih =>
    obtain ⟨k, v⟩ := e
    intro lo h
    simp only [smRising, Bool.and_eq_true] at h
    rw [List.filter_cons]
    split
    · simp only [smRising, Bool.and_eq_true]
      exact ⟨h.1, ih _ h.2⟩
    · refine ih lo (smRising_weaken h.2 ?_)
      cases lo with
      | none => trivial
      | some l => have := h.1; simp only [decide_eq_true_eq] at this; exact Nat.le_of_lt this

/-- The key of an entry may stand first above a bound. -/
def aboveBound (lo : Option Nat) (k : Nat) : Bool := match lo with | none => true | some l => decide (l < k)

theorem smRising_cons (lo : Option Nat) (k : Nat) (v : α) (m : SMap α) :
    smRising lo ((k, v) :: m) = (aboveBound lo k && smRising (some k) m) := rfl

/-- An insertion keeps keys rising. -/
theorem smRising_smInsert (k : Nat) (v : α) : ∀ (m : SMap α) (lo : Option Nat), smRising lo m = true →
    aboveBound lo k = true → smRising lo (smInsert m k v) = true := by
  intro m
  induction m with
  | nil => intro lo _ hl; simp only [smInsert, smRising_cons, hl]; rfl
  | cons e m ih =>
    obtain ⟨a, w⟩ := e
    intro lo h hl
    rw [smRising_cons, Bool.and_eq_true] at h
    simp only [smInsert]
    split
    · rename_i hk
      have ha : aboveBound (some k) a = true := decide_eq_true hk
      simp only [smRising_cons, hl, ha, h.2, Bool.and_self]
    · split
      · rename_i h1 h2
        subst h2
        simp only [smRising_cons, hl, h.2, Bool.true_and]
      · rename_i h1 h2
        rw [smRising_cons, Bool.and_eq_true]
        refine ⟨h.1, ih _ h.2 ?_⟩
        simp only [aboveBound, decide_eq_true_eq]
        omega

/-- The entries of an insertion. -/
theorem mem_smInsert {m : SMap α} {k : Nat} {v : α} {e : Nat × α} (h : e ∈ smInsert m k v) : e = (k, v) ∨ e ∈ m := by
  induction m with
  | nil => simpa [smInsert] using h
  | cons a m ih =>
    obtain ⟨j, w⟩ := a
    simp only [smInsert] at h
    split at h
    · rcases List.mem_cons.1 h with h | h
      · exact .inl h
      · exact .inr h
    · split at h
      · rcases List.mem_cons.1 h with h | h
        · exact .inl h
        · exact .inr (List.mem_cons_of_mem _ h)
      · rcases List.mem_cons.1 h with h | h
        · exact .inr (h ▸ List.mem_cons_self)
        · rcases ih h with h | h
          · exact .inl h
          · exact .inr (List.mem_cons_of_mem _ h)

/-- An empty store is canonical. -/
@[simp] theorem smWf_nil [DecidableEq α] (d : Nat → α) : smWf d [] = true := rfl

/-- A filter keeps the canonical form. -/
theorem smWf_filter [DecidableEq α] (d : Nat → α) (m : SMap α) (p : Nat × α → Bool) (h : smWf d m = true) : smWf d (m.filter p) = true := by
  simp only [smWf, Bool.and_eq_true] at h ⊢
  refine ⟨smRising_filter p m none h.1, ?_⟩
  rw [List.all_eq_true] at h ⊢
  intro e he
  exact h.2 e (List.mem_filter.1 he).1

/-- A write keeps the canonical form. -/
theorem smWf_smSet [DecidableEq α] (d : Nat → α) (m : SMap α) (k : Nat) (v : α) (h : smWf d m = true) : smWf d (smSet d m k v) = true := by
  rw [smSet_eq]
  split
  · exact smWf_filter d m _ h
  · rename_i hv
    simp only [smWf, Bool.and_eq_true] at h ⊢
    refine ⟨smRising_smInsert k v m none h.1 rfl, ?_⟩
    rw [List.all_eq_true] at h ⊢
    intro e he
    rcases mem_smInsert he with he | he
    · subst he
      simpa using hv
    · exact h.2 e he

/-- Clearing a region keeps the canonical form. -/
theorem smWf_smClear [DecidableEq α] (d : Nat → α) (m : SMap α) (p : Nat → Bool) (h : smWf d m = true) : smWf d (smClear m p) = true :=
  smWf_filter d m _ h

/-- A list of writes keeps the canonical form. -/
theorem smWf_smSetList [DecidableEq α] (d : Nat → α) (m : SMap α) (k : Nat) (vs : List α) (h : smWf d m = true) :
    smWf d (smSetList d m k vs) = true := by
  induction vs generalizing m k with
  | nil => exact h
  | cons v vs ih => exact ih _ _ (smWf_smSet d m k v h)

end Sys2Proof.Machine
end

