-- ==== Sys2Proof/Laws/State.lean ====
section
/-!
SUPPORT. What each named update of the state leaves alone: one lemma for each field and update, true by unfolding, so that no
later proof opens a record update.
-/

namespace Sys2Proof.Machine

variable (s : State)

/-! ### setReg changes `regs` -/

@[simp] theorem State.setReg_pending (d p o : Nat) (v : Word) : (s.setReg d p o v).pending = s.pending := rfl
@[simp] theorem State.setReg_fresh (d p o : Nat) (v : Word) : (s.setReg d p o v).fresh = s.fresh := rfl
@[simp] theorem State.setReg_shadow (d p o : Nat) (v : Word) : (s.setReg d p o v).shadow = s.shadow := rfl
@[simp] theorem State.setReg_path (d p o : Nat) (v : Word) : (s.setReg d p o v).path = s.path := rfl
@[simp] theorem State.setReg_readData (d p o : Nat) (v : Word) : (s.setReg d p o v).readData = s.readData := rfl
@[simp] theorem State.setReg_hostOut (d p o : Nat) (v : Word) : (s.setReg d p o v).hostOut = s.hostOut := rfl
@[simp] theorem State.setReg_cores (d p o : Nat) (v : Word) : (s.setReg d p o v).cores = s.cores := rfl
@[simp] theorem State.setReg_faces (d p o : Nat) (v : Word) : (s.setReg d p o v).faces = s.faces := rfl
@[simp] theorem State.setReg_slabs (d p o : Nat) (v : Word) : (s.setReg d p o v).slabs = s.slabs := rfl
@[simp] theorem State.setReg_benches (d p o : Nat) (v : Word) : (s.setReg d p o v).benches = s.benches := rfl
@[simp] theorem State.setReg_mem (d p o : Nat) (v : Word) : (s.setReg d p o v).mem = s.mem := rfl
@[simp] theorem State.setReg_keyTags (d p o : Nat) (v : Word) : (s.setReg d p o v).keyTags = s.keyTags := rfl
@[simp] theorem State.setReg_keyGen (d p o : Nat) (v : Word) : (s.setReg d p o v).keyGen = s.keyGen := rfl
@[simp] theorem State.setReg_arb (d p o : Nat) (v : Word) : (s.setReg d p o v).arb = s.arb := rfl
@[simp] theorem State.setReg_verdicts (d p o : Nat) (v : Word) : (s.setReg d p o v).verdicts = s.verdicts := rfl
@[simp] theorem State.setReg_badLines (d p o : Nat) (v : Word) : (s.setReg d p o v).badLines = s.badLines := rfl
@[simp] theorem State.setReg_fabric (d p o : Nat) (v : Word) : (s.setReg d p o v).fabric = s.fabric := rfl
@[simp] theorem State.setReg_ports (d p o : Nat) (v : Word) : (s.setReg d p o v).ports = s.ports := rfl
@[simp] theorem State.setReg_dieNum (d p o : Nat) (v : Word) : (s.setReg d p o v).dieNum = s.dieNum := rfl
@[simp] theorem State.setReg_fm (d p o : Nat) (v : Word) : (s.setReg d p o v).fm = s.fm := rfl
@[simp] theorem State.setReg_msixOn (d p o : Nat) (v : Word) : (s.setReg d p o v).msixOn = s.msixOn := rfl
@[simp] theorem State.setReg_msixFnMask (d p o : Nat) (v : Word) : (s.setReg d p o v).msixFnMask = s.msixFnMask := rfl
@[simp] theorem State.setReg_retired (d p o : Nat) (v : Word) : (s.setReg d p o v).retired = s.retired := rfl
@[simp] theorem State.setReg_fuses (d p o : Nat) (v : Word) : (s.setReg d p o v).fuses = s.fuses := rfl
@[simp] theorem State.setReg_carapace (d p o : Nat) (v : Word) : (s.setReg d p o v).carapace = s.carapace := rfl
@[simp] theorem State.setReg_rings (d p o : Nat) (v : Word) : (s.setReg d p o v).rings = s.rings := rfl
@[simp] theorem State.setReg_turn (d p o : Nat) (v : Word) : (s.setReg d p o v).turn = s.turn := rfl
@[simp] theorem State.setReg_boot (d p o : Nat) (v : Word) : (s.setReg d p o v).boot = s.boot := rfl
@[simp] theorem State.setReg_safety (d p o : Nat) (v : Word) : (s.setReg d p o v).safety = s.safety := rfl
@[simp] theorem State.setReg_side (d p o : Nat) (v : Word) : (s.setReg d p o v).side = s.side := rfl

/-! ### setFld changes `regs` -/

@[simp] theorem State.setFld_pending (d p o lo len v : Nat) : (s.setFld d p o lo len v).pending = s.pending := rfl
@[simp] theorem State.setFld_fresh (d p o lo len v : Nat) : (s.setFld d p o lo len v).fresh = s.fresh := rfl
@[simp] theorem State.setFld_shadow (d p o lo len v : Nat) : (s.setFld d p o lo len v).shadow = s.shadow := rfl
@[simp] theorem State.setFld_path (d p o lo len v : Nat) : (s.setFld d p o lo len v).path = s.path := rfl
@[simp] theorem State.setFld_readData (d p o lo len v : Nat) : (s.setFld d p o lo len v).readData = s.readData := rfl
@[simp] theorem State.setFld_hostOut (d p o lo len v : Nat) : (s.setFld d p o lo len v).hostOut = s.hostOut := rfl
@[simp] theorem State.setFld_cores (d p o lo len v : Nat) : (s.setFld d p o lo len v).cores = s.cores := rfl
@[simp] theorem State.setFld_faces (d p o lo len v : Nat) : (s.setFld d p o lo len v).faces = s.faces := rfl
@[simp] theorem State.setFld_slabs (d p o lo len v : Nat) : (s.setFld d p o lo len v).slabs = s.slabs := rfl
@[simp] theorem State.setFld_benches (d p o lo len v : Nat) : (s.setFld d p o lo len v).benches = s.benches := rfl
@[simp] theorem State.setFld_mem (d p o lo len v : Nat) : (s.setFld d p o lo len v).mem = s.mem := rfl
@[simp] theorem State.setFld_keyTags (d p o lo len v : Nat) : (s.setFld d p o lo len v).keyTags = s.keyTags := rfl
@[simp] theorem State.setFld_keyGen (d p o lo len v : Nat) : (s.setFld d p o lo len v).keyGen = s.keyGen := rfl
@[simp] theorem State.setFld_arb (d p o lo len v : Nat) : (s.setFld d p o lo len v).arb = s.arb := rfl
@[simp] theorem State.setFld_verdicts (d p o lo len v : Nat) : (s.setFld d p o lo len v).verdicts = s.verdicts := rfl
@[simp] theorem State.setFld_badLines (d p o lo len v : Nat) : (s.setFld d p o lo len v).badLines = s.badLines := rfl
@[simp] theorem State.setFld_fabric (d p o lo len v : Nat) : (s.setFld d p o lo len v).fabric = s.fabric := rfl
@[simp] theorem State.setFld_ports (d p o lo len v : Nat) : (s.setFld d p o lo len v).ports = s.ports := rfl
@[simp] theorem State.setFld_dieNum (d p o lo len v : Nat) : (s.setFld d p o lo len v).dieNum = s.dieNum := rfl
@[simp] theorem State.setFld_fm (d p o lo len v : Nat) : (s.setFld d p o lo len v).fm = s.fm := rfl
@[simp] theorem State.setFld_msixOn (d p o lo len v : Nat) : (s.setFld d p o lo len v).msixOn = s.msixOn := rfl
@[simp] theorem State.setFld_msixFnMask (d p o lo len v : Nat) : (s.setFld d p o lo len v).msixFnMask = s.msixFnMask := rfl
@[simp] theorem State.setFld_retired (d p o lo len v : Nat) : (s.setFld d p o lo len v).retired = s.retired := rfl
@[simp] theorem State.setFld_fuses (d p o lo len v : Nat) : (s.setFld d p o lo len v).fuses = s.fuses := rfl
@[simp] theorem State.setFld_carapace (d p o lo len v : Nat) : (s.setFld d p o lo len v).carapace = s.carapace := rfl
@[simp] theorem State.setFld_rings (d p o lo len v : Nat) : (s.setFld d p o lo len v).rings = s.rings := rfl
@[simp] theorem State.setFld_turn (d p o lo len v : Nat) : (s.setFld d p o lo len v).turn = s.turn := rfl
@[simp] theorem State.setFld_boot (d p o lo len v : Nat) : (s.setFld d p o lo len v).boot = s.boot := rfl
@[simp] theorem State.setFld_safety (d p o lo len v : Nat) : (s.setFld d p o lo len v).safety = s.safety := rfl
@[simp] theorem State.setFld_side (d p o lo len v : Nat) : (s.setFld d p o lo len v).side = s.side := rfl

/-! ### bump changes `regs` -/

@[simp] theorem State.bump_pending (d p o n : Nat) : (s.bump d p o n).pending = s.pending := rfl
@[simp] theorem State.bump_fresh (d p o n : Nat) : (s.bump d p o n).fresh = s.fresh := rfl
@[simp] theorem State.bump_shadow (d p o n : Nat) : (s.bump d p o n).shadow = s.shadow := rfl
@[simp] theorem State.bump_path (d p o n : Nat) : (s.bump d p o n).path = s.path := rfl
@[simp] theorem State.bump_readData (d p o n : Nat) : (s.bump d p o n).readData = s.readData := rfl
@[simp] theorem State.bump_hostOut (d p o n : Nat) : (s.bump d p o n).hostOut = s.hostOut := rfl
@[simp] theorem State.bump_cores (d p o n : Nat) : (s.bump d p o n).cores = s.cores := rfl
@[simp] theorem State.bump_faces (d p o n : Nat) : (s.bump d p o n).faces = s.faces := rfl
@[simp] theorem State.bump_slabs (d p o n : Nat) : (s.bump d p o n).slabs = s.slabs := rfl
@[simp] theorem State.bump_benches (d p o n : Nat) : (s.bump d p o n).benches = s.benches := rfl
@[simp] theorem State.bump_mem (d p o n : Nat) : (s.bump d p o n).mem = s.mem := rfl
@[simp] theorem State.bump_keyTags (d p o n : Nat) : (s.bump d p o n).keyTags = s.keyTags := rfl
@[simp] theorem State.bump_keyGen (d p o n : Nat) : (s.bump d p o n).keyGen = s.keyGen := rfl
@[simp] theorem State.bump_arb (d p o n : Nat) : (s.bump d p o n).arb = s.arb := rfl
@[simp] theorem State.bump_verdicts (d p o n : Nat) : (s.bump d p o n).verdicts = s.verdicts := rfl
@[simp] theorem State.bump_badLines (d p o n : Nat) : (s.bump d p o n).badLines = s.badLines := rfl
@[simp] theorem State.bump_fabric (d p o n : Nat) : (s.bump d p o n).fabric = s.fabric := rfl
@[simp] theorem State.bump_ports (d p o n : Nat) : (s.bump d p o n).ports = s.ports := rfl
@[simp] theorem State.bump_dieNum (d p o n : Nat) : (s.bump d p o n).dieNum = s.dieNum := rfl
@[simp] theorem State.bump_fm (d p o n : Nat) : (s.bump d p o n).fm = s.fm := rfl
@[simp] theorem State.bump_msixOn (d p o n : Nat) : (s.bump d p o n).msixOn = s.msixOn := rfl
@[simp] theorem State.bump_msixFnMask (d p o n : Nat) : (s.bump d p o n).msixFnMask = s.msixFnMask := rfl
@[simp] theorem State.bump_retired (d p o n : Nat) : (s.bump d p o n).retired = s.retired := rfl
@[simp] theorem State.bump_fuses (d p o n : Nat) : (s.bump d p o n).fuses = s.fuses := rfl
@[simp] theorem State.bump_carapace (d p o n : Nat) : (s.bump d p o n).carapace = s.carapace := rfl
@[simp] theorem State.bump_rings (d p o n : Nat) : (s.bump d p o n).rings = s.rings := rfl
@[simp] theorem State.bump_turn (d p o n : Nat) : (s.bump d p o n).turn = s.turn := rfl
@[simp] theorem State.bump_boot (d p o n : Nat) : (s.bump d p o n).boot = s.boot := rfl
@[simp] theorem State.bump_safety (d p o n : Nat) : (s.bump d p o n).safety = s.safety := rfl
@[simp] theorem State.bump_side (d p o n : Nat) : (s.bump d p o n).side = s.side := rfl

/-! ### updCore changes `cores` -/

@[simp] theorem State.updCore_pending (k : Nat) (f : Core → Core) : (s.updCore k f).pending = s.pending := rfl
@[simp] theorem State.updCore_fresh (k : Nat) (f : Core → Core) : (s.updCore k f).fresh = s.fresh := rfl
@[simp] theorem State.updCore_regs (k : Nat) (f : Core → Core) : (s.updCore k f).regs = s.regs := rfl
@[simp] theorem State.updCore_shadow (k : Nat) (f : Core → Core) : (s.updCore k f).shadow = s.shadow := rfl
@[simp] theorem State.updCore_path (k : Nat) (f : Core → Core) : (s.updCore k f).path = s.path := rfl
@[simp] theorem State.updCore_readData (k : Nat) (f : Core → Core) : (s.updCore k f).readData = s.readData := rfl
@[simp] theorem State.updCore_hostOut (k : Nat) (f : Core → Core) : (s.updCore k f).hostOut = s.hostOut := rfl
@[simp] theorem State.updCore_faces (k : Nat) (f : Core → Core) : (s.updCore k f).faces = s.faces := rfl
@[simp] theorem State.updCore_slabs (k : Nat) (f : Core → Core) : (s.updCore k f).slabs = s.slabs := rfl
@[simp] theorem State.updCore_benches (k : Nat) (f : Core → Core) : (s.updCore k f).benches = s.benches := rfl
@[simp] theorem State.updCore_mem (k : Nat) (f : Core → Core) : (s.updCore k f).mem = s.mem := rfl
@[simp] theorem State.updCore_keyTags (k : Nat) (f : Core → Core) : (s.updCore k f).keyTags = s.keyTags := rfl
@[simp] theorem State.updCore_keyGen (k : Nat) (f : Core → Core) : (s.updCore k f).keyGen = s.keyGen := rfl
@[simp] theorem State.updCore_arb (k : Nat) (f : Core → Core) : (s.updCore k f).arb = s.arb := rfl
@[simp] theorem State.updCore_verdicts (k : Nat) (f : Core → Core) : (s.updCore k f).verdicts = s.verdicts := rfl
@[simp] theorem State.updCore_badLines (k : Nat) (f : Core → Core) : (s.updCore k f).badLines = s.badLines := rfl
@[simp] theorem State.updCore_fabric (k : Nat) (f : Core → Core) : (s.updCore k f).fabric = s.fabric := rfl
@[simp] theorem State.updCore_ports (k : Nat) (f : Core → Core) : (s.updCore k f).ports = s.ports := rfl
@[simp] theorem State.updCore_dieNum (k : Nat) (f : Core → Core) : (s.updCore k f).dieNum = s.dieNum := rfl
@[simp] theorem State.updCore_fm (k : Nat) (f : Core → Core) : (s.updCore k f).fm = s.fm := rfl
@[simp] theorem State.updCore_msixOn (k : Nat) (f : Core → Core) : (s.updCore k f).msixOn = s.msixOn := rfl
@[simp] theorem State.updCore_msixFnMask (k : Nat) (f : Core → Core) : (s.updCore k f).msixFnMask = s.msixFnMask := rfl
@[simp] theorem State.updCore_retired (k : Nat) (f : Core → Core) : (s.updCore k f).retired = s.retired := rfl
@[simp] theorem State.updCore_fuses (k : Nat) (f : Core → Core) : (s.updCore k f).fuses = s.fuses := rfl
@[simp] theorem State.updCore_carapace (k : Nat) (f : Core → Core) : (s.updCore k f).carapace = s.carapace := rfl
@[simp] theorem State.updCore_rings (k : Nat) (f : Core → Core) : (s.updCore k f).rings = s.rings := rfl
@[simp] theorem State.updCore_turn (k : Nat) (f : Core → Core) : (s.updCore k f).turn = s.turn := rfl
@[simp] theorem State.updCore_boot (k : Nat) (f : Core → Core) : (s.updCore k f).boot = s.boot := rfl
@[simp] theorem State.updCore_safety (k : Nat) (f : Core → Core) : (s.updCore k f).safety = s.safety := rfl
@[simp] theorem State.updCore_side (k : Nat) (f : Core → Core) : (s.updCore k f).side = s.side := rfl

/-! ### updFace changes `faces` -/

@[simp] theorem State.updFace_pending (b u : Nat) (f : Face → Face) : (s.updFace b u f).pending = s.pending := rfl
@[simp] theorem State.updFace_fresh (b u : Nat) (f : Face → Face) : (s.updFace b u f).fresh = s.fresh := rfl
@[simp] theorem State.updFace_regs (b u : Nat) (f : Face → Face) : (s.updFace b u f).regs = s.regs := rfl
@[simp] theorem State.updFace_shadow (b u : Nat) (f : Face → Face) : (s.updFace b u f).shadow = s.shadow := rfl
@[simp] theorem State.updFace_path (b u : Nat) (f : Face → Face) : (s.updFace b u f).path = s.path := rfl
@[simp] theorem State.updFace_readData (b u : Nat) (f : Face → Face) : (s.updFace b u f).readData = s.readData := rfl
@[simp] theorem State.updFace_hostOut (b u : Nat) (f : Face → Face) : (s.updFace b u f).hostOut = s.hostOut := rfl
@[simp] theorem State.updFace_cores (b u : Nat) (f : Face → Face) : (s.updFace b u f).cores = s.cores := rfl
@[simp] theorem State.updFace_slabs (b u : Nat) (f : Face → Face) : (s.updFace b u f).slabs = s.slabs := rfl
@[simp] theorem State.updFace_benches (b u : Nat) (f : Face → Face) : (s.updFace b u f).benches = s.benches := rfl
@[simp] theorem State.updFace_mem (b u : Nat) (f : Face → Face) : (s.updFace b u f).mem = s.mem := rfl
@[simp] theorem State.updFace_keyTags (b u : Nat) (f : Face → Face) : (s.updFace b u f).keyTags = s.keyTags := rfl
@[simp] theorem State.updFace_keyGen (b u : Nat) (f : Face → Face) : (s.updFace b u f).keyGen = s.keyGen := rfl
@[simp] theorem State.updFace_arb (b u : Nat) (f : Face → Face) : (s.updFace b u f).arb = s.arb := rfl
@[simp] theorem State.updFace_verdicts (b u : Nat) (f : Face → Face) : (s.updFace b u f).verdicts = s.verdicts := rfl
@[simp] theorem State.updFace_badLines (b u : Nat) (f : Face → Face) : (s.updFace b u f).badLines = s.badLines := rfl
@[simp] theorem State.updFace_fabric (b u : Nat) (f : Face → Face) : (s.updFace b u f).fabric = s.fabric := rfl
@[simp] theorem State.updFace_ports (b u : Nat) (f : Face → Face) : (s.updFace b u f).ports = s.ports := rfl
@[simp] theorem State.updFace_dieNum (b u : Nat) (f : Face → Face) : (s.updFace b u f).dieNum = s.dieNum := rfl
@[simp] theorem State.updFace_fm (b u : Nat) (f : Face → Face) : (s.updFace b u f).fm = s.fm := rfl
@[simp] theorem State.updFace_msixOn (b u : Nat) (f : Face → Face) : (s.updFace b u f).msixOn = s.msixOn := rfl
@[simp] theorem State.updFace_msixFnMask (b u : Nat) (f : Face → Face) : (s.updFace b u f).msixFnMask = s.msixFnMask := rfl
@[simp] theorem State.updFace_retired (b u : Nat) (f : Face → Face) : (s.updFace b u f).retired = s.retired := rfl
@[simp] theorem State.updFace_fuses (b u : Nat) (f : Face → Face) : (s.updFace b u f).fuses = s.fuses := rfl
@[simp] theorem State.updFace_carapace (b u : Nat) (f : Face → Face) : (s.updFace b u f).carapace = s.carapace := rfl
@[simp] theorem State.updFace_rings (b u : Nat) (f : Face → Face) : (s.updFace b u f).rings = s.rings := rfl
@[simp] theorem State.updFace_turn (b u : Nat) (f : Face → Face) : (s.updFace b u f).turn = s.turn := rfl
@[simp] theorem State.updFace_boot (b u : Nat) (f : Face → Face) : (s.updFace b u f).boot = s.boot := rfl
@[simp] theorem State.updFace_safety (b u : Nat) (f : Face → Face) : (s.updFace b u f).safety = s.safety := rfl
@[simp] theorem State.updFace_side (b u : Nat) (f : Face → Face) : (s.updFace b u f).side = s.side := rfl

/-! ### updSlab changes `slabs` -/

@[simp] theorem State.updSlab_pending (b i : Nat) (f : Slab → Slab) : (s.updSlab b i f).pending = s.pending := rfl
@[simp] theorem State.updSlab_fresh (b i : Nat) (f : Slab → Slab) : (s.updSlab b i f).fresh = s.fresh := rfl
@[simp] theorem State.updSlab_regs (b i : Nat) (f : Slab → Slab) : (s.updSlab b i f).regs = s.regs := rfl
@[simp] theorem State.updSlab_shadow (b i : Nat) (f : Slab → Slab) : (s.updSlab b i f).shadow = s.shadow := rfl
@[simp] theorem State.updSlab_path (b i : Nat) (f : Slab → Slab) : (s.updSlab b i f).path = s.path := rfl
@[simp] theorem State.updSlab_readData (b i : Nat) (f : Slab → Slab) : (s.updSlab b i f).readData = s.readData := rfl
@[simp] theorem State.updSlab_hostOut (b i : Nat) (f : Slab → Slab) : (s.updSlab b i f).hostOut = s.hostOut := rfl
@[simp] theorem State.updSlab_cores (b i : Nat) (f : Slab → Slab) : (s.updSlab b i f).cores = s.cores := rfl
@[simp] theorem State.updSlab_faces (b i : Nat) (f : Slab → Slab) : (s.updSlab b i f).faces = s.faces := rfl
@[simp] theorem State.updSlab_benches (b i : Nat) (f : Slab → Slab) : (s.updSlab b i f).benches = s.benches := rfl
@[simp] theorem State.updSlab_mem (b i : Nat) (f : Slab → Slab) : (s.updSlab b i f).mem = s.mem := rfl
@[simp] theorem State.updSlab_keyTags (b i : Nat) (f : Slab → Slab) : (s.updSlab b i f).keyTags = s.keyTags := rfl
@[simp] theorem State.updSlab_keyGen (b i : Nat) (f : Slab → Slab) : (s.updSlab b i f).keyGen = s.keyGen := rfl
@[simp] theorem State.updSlab_arb (b i : Nat) (f : Slab → Slab) : (s.updSlab b i f).arb = s.arb := rfl
@[simp] theorem State.updSlab_verdicts (b i : Nat) (f : Slab → Slab) : (s.updSlab b i f).verdicts = s.verdicts := rfl
@[simp] theorem State.updSlab_badLines (b i : Nat) (f : Slab → Slab) : (s.updSlab b i f).badLines = s.badLines := rfl
@[simp] theorem State.updSlab_fabric (b i : Nat) (f : Slab → Slab) : (s.updSlab b i f).fabric = s.fabric := rfl
@[simp] theorem State.updSlab_ports (b i : Nat) (f : Slab → Slab) : (s.updSlab b i f).ports = s.ports := rfl
@[simp] theorem State.updSlab_dieNum (b i : Nat) (f : Slab → Slab) : (s.updSlab b i f).dieNum = s.dieNum := rfl
@[simp] theorem State.updSlab_fm (b i : Nat) (f : Slab → Slab) : (s.updSlab b i f).fm = s.fm := rfl
@[simp] theorem State.updSlab_msixOn (b i : Nat) (f : Slab → Slab) : (s.updSlab b i f).msixOn = s.msixOn := rfl
@[simp] theorem State.updSlab_msixFnMask (b i : Nat) (f : Slab → Slab) : (s.updSlab b i f).msixFnMask = s.msixFnMask := rfl
@[simp] theorem State.updSlab_retired (b i : Nat) (f : Slab → Slab) : (s.updSlab b i f).retired = s.retired := rfl
@[simp] theorem State.updSlab_fuses (b i : Nat) (f : Slab → Slab) : (s.updSlab b i f).fuses = s.fuses := rfl
@[simp] theorem State.updSlab_carapace (b i : Nat) (f : Slab → Slab) : (s.updSlab b i f).carapace = s.carapace := rfl
@[simp] theorem State.updSlab_rings (b i : Nat) (f : Slab → Slab) : (s.updSlab b i f).rings = s.rings := rfl
@[simp] theorem State.updSlab_turn (b i : Nat) (f : Slab → Slab) : (s.updSlab b i f).turn = s.turn := rfl
@[simp] theorem State.updSlab_boot (b i : Nat) (f : Slab → Slab) : (s.updSlab b i f).boot = s.boot := rfl
@[simp] theorem State.updSlab_safety (b i : Nat) (f : Slab → Slab) : (s.updSlab b i f).safety = s.safety := rfl
@[simp] theorem State.updSlab_side (b i : Nat) (f : Slab → Slab) : (s.updSlab b i f).side = s.side := rfl

/-! ### updBench changes `benches` -/

@[simp] theorem State.updBench_pending (b : Nat) (f : Bench → Bench) : (s.updBench b f).pending = s.pending := rfl
@[simp] theorem State.updBench_fresh (b : Nat) (f : Bench → Bench) : (s.updBench b f).fresh = s.fresh := rfl
@[simp] theorem State.updBench_regs (b : Nat) (f : Bench → Bench) : (s.updBench b f).regs = s.regs := rfl
@[simp] theorem State.updBench_shadow (b : Nat) (f : Bench → Bench) : (s.updBench b f).shadow = s.shadow := rfl
@[simp] theorem State.updBench_path (b : Nat) (f : Bench → Bench) : (s.updBench b f).path = s.path := rfl
@[simp] theorem State.updBench_readData (b : Nat) (f : Bench → Bench) : (s.updBench b f).readData = s.readData := rfl
@[simp] theorem State.updBench_hostOut (b : Nat) (f : Bench → Bench) : (s.updBench b f).hostOut = s.hostOut := rfl
@[simp] theorem State.updBench_cores (b : Nat) (f : Bench → Bench) : (s.updBench b f).cores = s.cores := rfl
@[simp] theorem State.updBench_faces (b : Nat) (f : Bench → Bench) : (s.updBench b f).faces = s.faces := rfl
@[simp] theorem State.updBench_slabs (b : Nat) (f : Bench → Bench) : (s.updBench b f).slabs = s.slabs := rfl
@[simp] theorem State.updBench_mem (b : Nat) (f : Bench → Bench) : (s.updBench b f).mem = s.mem := rfl
@[simp] theorem State.updBench_keyTags (b : Nat) (f : Bench → Bench) : (s.updBench b f).keyTags = s.keyTags := rfl
@[simp] theorem State.updBench_keyGen (b : Nat) (f : Bench → Bench) : (s.updBench b f).keyGen = s.keyGen := rfl
@[simp] theorem State.updBench_arb (b : Nat) (f : Bench → Bench) : (s.updBench b f).arb = s.arb := rfl
@[simp] theorem State.updBench_verdicts (b : Nat) (f : Bench → Bench) : (s.updBench b f).verdicts = s.verdicts := rfl
@[simp] theorem State.updBench_badLines (b : Nat) (f : Bench → Bench) : (s.updBench b f).badLines = s.badLines := rfl
@[simp] theorem State.updBench_fabric (b : Nat) (f : Bench → Bench) : (s.updBench b f).fabric = s.fabric := rfl
@[simp] theorem State.updBench_ports (b : Nat) (f : Bench → Bench) : (s.updBench b f).ports = s.ports := rfl
@[simp] theorem State.updBench_dieNum (b : Nat) (f : Bench → Bench) : (s.updBench b f).dieNum = s.dieNum := rfl
@[simp] theorem State.updBench_fm (b : Nat) (f : Bench → Bench) : (s.updBench b f).fm = s.fm := rfl
@[simp] theorem State.updBench_msixOn (b : Nat) (f : Bench → Bench) : (s.updBench b f).msixOn = s.msixOn := rfl
@[simp] theorem State.updBench_msixFnMask (b : Nat) (f : Bench → Bench) : (s.updBench b f).msixFnMask = s.msixFnMask := rfl
@[simp] theorem State.updBench_retired (b : Nat) (f : Bench → Bench) : (s.updBench b f).retired = s.retired := rfl
@[simp] theorem State.updBench_fuses (b : Nat) (f : Bench → Bench) : (s.updBench b f).fuses = s.fuses := rfl
@[simp] theorem State.updBench_carapace (b : Nat) (f : Bench → Bench) : (s.updBench b f).carapace = s.carapace := rfl
@[simp] theorem State.updBench_rings (b : Nat) (f : Bench → Bench) : (s.updBench b f).rings = s.rings := rfl
@[simp] theorem State.updBench_turn (b : Nat) (f : Bench → Bench) : (s.updBench b f).turn = s.turn := rfl
@[simp] theorem State.updBench_boot (b : Nat) (f : Bench → Bench) : (s.updBench b f).boot = s.boot := rfl
@[simp] theorem State.updBench_safety (b : Nat) (f : Bench → Bench) : (s.updBench b f).safety = s.safety := rfl
@[simp] theorem State.updBench_side (b : Nat) (f : Bench → Bench) : (s.updBench b f).side = s.side := rfl

/-! ### updPort changes `ports` -/

@[simp] theorem State.updPort_pending (d q : Nat) (f : Port → Port) : (s.updPort d q f).pending = s.pending := rfl
@[simp] theorem State.updPort_fresh (d q : Nat) (f : Port → Port) : (s.updPort d q f).fresh = s.fresh := rfl
@[simp] theorem State.updPort_regs (d q : Nat) (f : Port → Port) : (s.updPort d q f).regs = s.regs := rfl
@[simp] theorem State.updPort_shadow (d q : Nat) (f : Port → Port) : (s.updPort d q f).shadow = s.shadow := rfl
@[simp] theorem State.updPort_path (d q : Nat) (f : Port → Port) : (s.updPort d q f).path = s.path := rfl
@[simp] theorem State.updPort_readData (d q : Nat) (f : Port → Port) : (s.updPort d q f).readData = s.readData := rfl
@[simp] theorem State.updPort_hostOut (d q : Nat) (f : Port → Port) : (s.updPort d q f).hostOut = s.hostOut := rfl
@[simp] theorem State.updPort_cores (d q : Nat) (f : Port → Port) : (s.updPort d q f).cores = s.cores := rfl
@[simp] theorem State.updPort_faces (d q : Nat) (f : Port → Port) : (s.updPort d q f).faces = s.faces := rfl
@[simp] theorem State.updPort_slabs (d q : Nat) (f : Port → Port) : (s.updPort d q f).slabs = s.slabs := rfl
@[simp] theorem State.updPort_mem (d q : Nat) (f : Port → Port) : (s.updPort d q f).mem = s.mem := rfl
@[simp] theorem State.updPort_keyTags (d q : Nat) (f : Port → Port) : (s.updPort d q f).keyTags = s.keyTags := rfl
@[simp] theorem State.updPort_keyGen (d q : Nat) (f : Port → Port) : (s.updPort d q f).keyGen = s.keyGen := rfl
@[simp] theorem State.updPort_arb (d q : Nat) (f : Port → Port) : (s.updPort d q f).arb = s.arb := rfl
@[simp] theorem State.updPort_verdicts (d q : Nat) (f : Port → Port) : (s.updPort d q f).verdicts = s.verdicts := rfl
@[simp] theorem State.updPort_badLines (d q : Nat) (f : Port → Port) : (s.updPort d q f).badLines = s.badLines := rfl
@[simp] theorem State.updPort_fabric (d q : Nat) (f : Port → Port) : (s.updPort d q f).fabric = s.fabric := rfl
@[simp] theorem State.updPort_benches (d q : Nat) (f : Port → Port) : (s.updPort d q f).benches = s.benches := rfl
@[simp] theorem State.updPort_dieNum (d q : Nat) (f : Port → Port) : (s.updPort d q f).dieNum = s.dieNum := rfl
@[simp] theorem State.updPort_fm (d q : Nat) (f : Port → Port) : (s.updPort d q f).fm = s.fm := rfl
@[simp] theorem State.updPort_msixOn (d q : Nat) (f : Port → Port) : (s.updPort d q f).msixOn = s.msixOn := rfl
@[simp] theorem State.updPort_msixFnMask (d q : Nat) (f : Port → Port) : (s.updPort d q f).msixFnMask = s.msixFnMask := rfl
@[simp] theorem State.updPort_retired (d q : Nat) (f : Port → Port) : (s.updPort d q f).retired = s.retired := rfl
@[simp] theorem State.updPort_fuses (d q : Nat) (f : Port → Port) : (s.updPort d q f).fuses = s.fuses := rfl
@[simp] theorem State.updPort_carapace (d q : Nat) (f : Port → Port) : (s.updPort d q f).carapace = s.carapace := rfl
@[simp] theorem State.updPort_rings (d q : Nat) (f : Port → Port) : (s.updPort d q f).rings = s.rings := rfl
@[simp] theorem State.updPort_turn (d q : Nat) (f : Port → Port) : (s.updPort d q f).turn = s.turn := rfl
@[simp] theorem State.updPort_boot (d q : Nat) (f : Port → Port) : (s.updPort d q f).boot = s.boot := rfl
@[simp] theorem State.updPort_safety (d q : Nat) (f : Port → Port) : (s.updPort d q f).safety = s.safety := rfl
@[simp] theorem State.updPort_side (d q : Nat) (f : Port → Port) : (s.updPort d q f).side = s.side := rfl

/-! ### draw changes `fresh` -/

@[simp] theorem State.draw_pending : s.draw.pending = s.pending := rfl
@[simp] theorem State.draw_regs : s.draw.regs = s.regs := rfl
@[simp] theorem State.draw_shadow : s.draw.shadow = s.shadow := rfl
@[simp] theorem State.draw_path : s.draw.path = s.path := rfl
@[simp] theorem State.draw_readData : s.draw.readData = s.readData := rfl
@[simp] theorem State.draw_hostOut : s.draw.hostOut = s.hostOut := rfl
@[simp] theorem State.draw_cores : s.draw.cores = s.cores := rfl
@[simp] theorem State.draw_faces : s.draw.faces = s.faces := rfl
@[simp] theorem State.draw_slabs : s.draw.slabs = s.slabs := rfl
@[simp] theorem State.draw_benches : s.draw.benches = s.benches := rfl
@[simp] theorem State.draw_mem : s.draw.mem = s.mem := rfl
@[simp] theorem State.draw_keyTags : s.draw.keyTags = s.keyTags := rfl
@[simp] theorem State.draw_keyGen : s.draw.keyGen = s.keyGen := rfl
@[simp] theorem State.draw_arb : s.draw.arb = s.arb := rfl
@[simp] theorem State.draw_verdicts : s.draw.verdicts = s.verdicts := rfl
@[simp] theorem State.draw_badLines : s.draw.badLines = s.badLines := rfl
@[simp] theorem State.draw_fabric : s.draw.fabric = s.fabric := rfl
@[simp] theorem State.draw_ports : s.draw.ports = s.ports := rfl
@[simp] theorem State.draw_dieNum : s.draw.dieNum = s.dieNum := rfl
@[simp] theorem State.draw_fm : s.draw.fm = s.fm := rfl
@[simp] theorem State.draw_msixOn : s.draw.msixOn = s.msixOn := rfl
@[simp] theorem State.draw_msixFnMask : s.draw.msixFnMask = s.msixFnMask := rfl
@[simp] theorem State.draw_retired : s.draw.retired = s.retired := rfl
@[simp] theorem State.draw_fuses : s.draw.fuses = s.fuses := rfl
@[simp] theorem State.draw_carapace : s.draw.carapace = s.carapace := rfl
@[simp] theorem State.draw_rings : s.draw.rings = s.rings := rfl
@[simp] theorem State.draw_turn : s.draw.turn = s.turn := rfl
@[simp] theorem State.draw_boot : s.draw.boot = s.boot := rfl
@[simp] theorem State.draw_safety : s.draw.safety = s.safety := rfl
@[simp] theorem State.draw_side : s.draw.side = s.side := rfl

/-! ### putBytes changes `mem` -/

@[simp] theorem State.putBytes_pending (l : Nat) (bs : List Byte) : (s.putBytes l bs).pending = s.pending := rfl
@[simp] theorem State.putBytes_fresh (l : Nat) (bs : List Byte) : (s.putBytes l bs).fresh = s.fresh := rfl
@[simp] theorem State.putBytes_regs (l : Nat) (bs : List Byte) : (s.putBytes l bs).regs = s.regs := rfl
@[simp] theorem State.putBytes_shadow (l : Nat) (bs : List Byte) : (s.putBytes l bs).shadow = s.shadow := rfl
@[simp] theorem State.putBytes_path (l : Nat) (bs : List Byte) : (s.putBytes l bs).path = s.path := rfl
@[simp] theorem State.putBytes_readData (l : Nat) (bs : List Byte) : (s.putBytes l bs).readData = s.readData := rfl
@[simp] theorem State.putBytes_hostOut (l : Nat) (bs : List Byte) : (s.putBytes l bs).hostOut = s.hostOut := rfl
@[simp] theorem State.putBytes_cores (l : Nat) (bs : List Byte) : (s.putBytes l bs).cores = s.cores := rfl
@[simp] theorem State.putBytes_faces (l : Nat) (bs : List Byte) : (s.putBytes l bs).faces = s.faces := rfl
@[simp] theorem State.putBytes_slabs (l : Nat) (bs : List Byte) : (s.putBytes l bs).slabs = s.slabs := rfl
@[simp] theorem State.putBytes_benches (l : Nat) (bs : List Byte) : (s.putBytes l bs).benches = s.benches := rfl
@[simp] theorem State.putBytes_keyTags (l : Nat) (bs : List Byte) : (s.putBytes l bs).keyTags = s.keyTags := rfl
@[simp] theorem State.putBytes_keyGen (l : Nat) (bs : List Byte) : (s.putBytes l bs).keyGen = s.keyGen := rfl
@[simp] theorem State.putBytes_arb (l : Nat) (bs : List Byte) : (s.putBytes l bs).arb = s.arb := rfl
@[simp] theorem State.putBytes_verdicts (l : Nat) (bs : List Byte) : (s.putBytes l bs).verdicts = s.verdicts := rfl
@[simp] theorem State.putBytes_badLines (l : Nat) (bs : List Byte) : (s.putBytes l bs).badLines = s.badLines := rfl
@[simp] theorem State.putBytes_fabric (l : Nat) (bs : List Byte) : (s.putBytes l bs).fabric = s.fabric := rfl
@[simp] theorem State.putBytes_ports (l : Nat) (bs : List Byte) : (s.putBytes l bs).ports = s.ports := rfl
@[simp] theorem State.putBytes_dieNum (l : Nat) (bs : List Byte) : (s.putBytes l bs).dieNum = s.dieNum := rfl
@[simp] theorem State.putBytes_fm (l : Nat) (bs : List Byte) : (s.putBytes l bs).fm = s.fm := rfl
@[simp] theorem State.putBytes_msixOn (l : Nat) (bs : List Byte) : (s.putBytes l bs).msixOn = s.msixOn := rfl
@[simp] theorem State.putBytes_msixFnMask (l : Nat) (bs : List Byte) : (s.putBytes l bs).msixFnMask = s.msixFnMask := rfl
@[simp] theorem State.putBytes_retired (l : Nat) (bs : List Byte) : (s.putBytes l bs).retired = s.retired := rfl
@[simp] theorem State.putBytes_fuses (l : Nat) (bs : List Byte) : (s.putBytes l bs).fuses = s.fuses := rfl
@[simp] theorem State.putBytes_carapace (l : Nat) (bs : List Byte) : (s.putBytes l bs).carapace = s.carapace := rfl
@[simp] theorem State.putBytes_rings (l : Nat) (bs : List Byte) : (s.putBytes l bs).rings = s.rings := rfl
@[simp] theorem State.putBytes_turn (l : Nat) (bs : List Byte) : (s.putBytes l bs).turn = s.turn := rfl
@[simp] theorem State.putBytes_boot (l : Nat) (bs : List Byte) : (s.putBytes l bs).boot = s.boot := rfl
@[simp] theorem State.putBytes_safety (l : Nat) (bs : List Byte) : (s.putBytes l bs).safety = s.safety := rfl
@[simp] theorem State.putBytes_side (l : Nat) (bs : List Byte) : (s.putBytes l bs).side = s.side := rfl

/-! ### clearRegion changes `mem` -/

@[simp] theorem State.clearRegion_pending (r d u : Nat) : (s.clearRegion r d u).pending = s.pending := rfl
@[simp] theorem State.clearRegion_fresh (r d u : Nat) : (s.clearRegion r d u).fresh = s.fresh := rfl
@[simp] theorem State.clearRegion_regs (r d u : Nat) : (s.clearRegion r d u).regs = s.regs := rfl
@[simp] theorem State.clearRegion_shadow (r d u : Nat) : (s.clearRegion r d u).shadow = s.shadow := rfl
@[simp] theorem State.clearRegion_path (r d u : Nat) : (s.clearRegion r d u).path = s.path := rfl
@[simp] theorem State.clearRegion_readData (r d u : Nat) : (s.clearRegion r d u).readData = s.readData := rfl
@[simp] theorem State.clearRegion_hostOut (r d u : Nat) : (s.clearRegion r d u).hostOut = s.hostOut := rfl
@[simp] theorem State.clearRegion_cores (r d u : Nat) : (s.clearRegion r d u).cores = s.cores := rfl
@[simp] theorem State.clearRegion_faces (r d u : Nat) : (s.clearRegion r d u).faces = s.faces := rfl
@[simp] theorem State.clearRegion_slabs (r d u : Nat) : (s.clearRegion r d u).slabs = s.slabs := rfl
@[simp] theorem State.clearRegion_benches (r d u : Nat) : (s.clearRegion r d u).benches = s.benches := rfl
@[simp] theorem State.clearRegion_keyTags (r d u : Nat) : (s.clearRegion r d u).keyTags = s.keyTags := rfl
@[simp] theorem State.clearRegion_keyGen (r d u : Nat) : (s.clearRegion r d u).keyGen = s.keyGen := rfl
@[simp] theorem State.clearRegion_arb (r d u : Nat) : (s.clearRegion r d u).arb = s.arb := rfl
@[simp] theorem State.clearRegion_verdicts (r d u : Nat) : (s.clearRegion r d u).verdicts = s.verdicts := rfl
@[simp] theorem State.clearRegion_badLines (r d u : Nat) : (s.clearRegion r d u).badLines = s.badLines := rfl
@[simp] theorem State.clearRegion_fabric (r d u : Nat) : (s.clearRegion r d u).fabric = s.fabric := rfl
@[simp] theorem State.clearRegion_ports (r d u : Nat) : (s.clearRegion r d u).ports = s.ports := rfl
@[simp] theorem State.clearRegion_dieNum (r d u : Nat) : (s.clearRegion r d u).dieNum = s.dieNum := rfl
@[simp] theorem State.clearRegion_fm (r d u : Nat) : (s.clearRegion r d u).fm = s.fm := rfl
@[simp] theorem State.clearRegion_msixOn (r d u : Nat) : (s.clearRegion r d u).msixOn = s.msixOn := rfl
@[simp] theorem State.clearRegion_msixFnMask (r d u : Nat) : (s.clearRegion r d u).msixFnMask = s.msixFnMask := rfl
@[simp] theorem State.clearRegion_retired (r d u : Nat) : (s.clearRegion r d u).retired = s.retired := rfl
@[simp] theorem State.clearRegion_fuses (r d u : Nat) : (s.clearRegion r d u).fuses = s.fuses := rfl
@[simp] theorem State.clearRegion_carapace (r d u : Nat) : (s.clearRegion r d u).carapace = s.carapace := rfl
@[simp] theorem State.clearRegion_rings (r d u : Nat) : (s.clearRegion r d u).rings = s.rings := rfl
@[simp] theorem State.clearRegion_turn (r d u : Nat) : (s.clearRegion r d u).turn = s.turn := rfl
@[simp] theorem State.clearRegion_boot (r d u : Nat) : (s.clearRegion r d u).boot = s.boot := rfl
@[simp] theorem State.clearRegion_safety (r d u : Nat) : (s.clearRegion r d u).safety = s.safety := rfl
@[simp] theorem State.clearRegion_side (r d u : Nat) : (s.clearRegion r d u).side = s.side := rfl

/-! ### send changes `fabric`, `ports` and, at a Stockpile, a peak in `regs` -/

/-- Everything that sending a packet can change. -/
theorem State.send_changes (p : Packet) : ∃ f m r, s.send p = { s with fabric := f, ports := m, regs := r } := by
  unfold State.send State.reach State.queueAt State.updPort
  simp only
  split
  · split
    · exact ⟨_, s.ports, _, rfl⟩
    · exact ⟨_, s.ports, s.regs, rfl⟩
  · split
    · exact ⟨s.fabric, s.ports, s.regs, rfl⟩
    · split
      · exact ⟨s.fabric, _, s.regs, rfl⟩
      · exact ⟨s.fabric, _, s.regs, rfl⟩


@[simp] theorem State.send_pending (p : Packet) : (s.send p).pending = s.pending := by obtain ⟨_, _, _, h⟩ := s.send_changes p; rw [h]
@[simp] theorem State.send_fresh (p : Packet) : (s.send p).fresh = s.fresh := by obtain ⟨_, _, _, h⟩ := s.send_changes p; rw [h]
@[simp] theorem State.send_shadow (p : Packet) : (s.send p).shadow = s.shadow := by obtain ⟨_, _, _, h⟩ := s.send_changes p; rw [h]
@[simp] theorem State.send_path (p : Packet) : (s.send p).path = s.path := by obtain ⟨_, _, _, h⟩ := s.send_changes p; rw [h]
@[simp] theorem State.send_readData (p : Packet) : (s.send p).readData = s.readData := by obtain ⟨_, _, _, h⟩ := s.send_changes p; rw [h]
@[simp] theorem State.send_hostOut (p : Packet) : (s.send p).hostOut = s.hostOut := by obtain ⟨_, _, _, h⟩ := s.send_changes p; rw [h]
@[simp] theorem State.send_cores (p : Packet) : (s.send p).cores = s.cores := by obtain ⟨_, _, _, h⟩ := s.send_changes p; rw [h]
@[simp] theorem State.send_faces (p : Packet) : (s.send p).faces = s.faces := by obtain ⟨_, _, _, h⟩ := s.send_changes p; rw [h]
@[simp] theorem State.send_slabs (p : Packet) : (s.send p).slabs = s.slabs := by obtain ⟨_, _, _, h⟩ := s.send_changes p; rw [h]
@[simp] theorem State.send_benches (p : Packet) : (s.send p).benches = s.benches := by obtain ⟨_, _, _, h⟩ := s.send_changes p; rw [h]
@[simp] theorem State.send_mem (p : Packet) : (s.send p).mem = s.mem := by obtain ⟨_, _, _, h⟩ := s.send_changes p; rw [h]
@[simp] theorem State.send_keyTags (p : Packet) : (s.send p).keyTags = s.keyTags := by obtain ⟨_, _, _, h⟩ := s.send_changes p; rw [h]
@[simp] theorem State.send_keyGen (p : Packet) : (s.send p).keyGen = s.keyGen := by obtain ⟨_, _, _, h⟩ := s.send_changes p; rw [h]
@[simp] theorem State.send_arb (p : Packet) : (s.send p).arb = s.arb := by obtain ⟨_, _, _, h⟩ := s.send_changes p; rw [h]
@[simp] theorem State.send_verdicts (p : Packet) : (s.send p).verdicts = s.verdicts := by obtain ⟨_, _, _, h⟩ := s.send_changes p; rw [h]
@[simp] theorem State.send_badLines (p : Packet) : (s.send p).badLines = s.badLines := by obtain ⟨_, _, _, h⟩ := s.send_changes p; rw [h]
@[simp] theorem State.send_dieNum (p : Packet) : (s.send p).dieNum = s.dieNum := by obtain ⟨_, _, _, h⟩ := s.send_changes p; rw [h]
@[simp] theorem State.send_fm (p : Packet) : (s.send p).fm = s.fm := by obtain ⟨_, _, _, h⟩ := s.send_changes p; rw [h]
@[simp] theorem State.send_msixOn (p : Packet) : (s.send p).msixOn = s.msixOn := by obtain ⟨_, _, _, h⟩ := s.send_changes p; rw [h]
@[simp] theorem State.send_msixFnMask (p : Packet) : (s.send p).msixFnMask = s.msixFnMask := by obtain ⟨_, _, _, h⟩ := s.send_changes p; rw [h]
@[simp] theorem State.send_retired (p : Packet) : (s.send p).retired = s.retired := by obtain ⟨_, _, _, h⟩ := s.send_changes p; rw [h]
@[simp] theorem State.send_fuses (p : Packet) : (s.send p).fuses = s.fuses := by obtain ⟨_, _, _, h⟩ := s.send_changes p; rw [h]
@[simp] theorem State.send_carapace (p : Packet) : (s.send p).carapace = s.carapace := by obtain ⟨_, _, _, h⟩ := s.send_changes p; rw [h]
@[simp] theorem State.send_rings (p : Packet) : (s.send p).rings = s.rings := by obtain ⟨_, _, _, h⟩ := s.send_changes p; rw [h]
@[simp] theorem State.send_turn (p : Packet) : (s.send p).turn = s.turn := by obtain ⟨_, _, _, h⟩ := s.send_changes p; rw [h]
@[simp] theorem State.send_boot (p : Packet) : (s.send p).boot = s.boot := by obtain ⟨_, _, _, h⟩ := s.send_changes p; rw [h]
@[simp] theorem State.send_safety (p : Packet) : (s.send p).safety = s.safety := by obtain ⟨_, _, _, h⟩ := s.send_changes p; rw [h]
@[simp] theorem State.send_side (p : Packet) : (s.send p).side = s.side := by obtain ⟨_, _, _, h⟩ := s.send_changes p; rw [h]

/-! ### setPc changes `cores` -/

@[simp] theorem State.setPc_pending (c : CoreId) (pc : Nat) : (s.setPc c pc).pending = s.pending := rfl
@[simp] theorem State.setPc_fresh (c : CoreId) (pc : Nat) : (s.setPc c pc).fresh = s.fresh := rfl
@[simp] theorem State.setPc_regs (c : CoreId) (pc : Nat) : (s.setPc c pc).regs = s.regs := rfl
@[simp] theorem State.setPc_shadow (c : CoreId) (pc : Nat) : (s.setPc c pc).shadow = s.shadow := rfl
@[simp] theorem State.setPc_path (c : CoreId) (pc : Nat) : (s.setPc c pc).path = s.path := rfl
@[simp] theorem State.setPc_readData (c : CoreId) (pc : Nat) : (s.setPc c pc).readData = s.readData := rfl
@[simp] theorem State.setPc_hostOut (c : CoreId) (pc : Nat) : (s.setPc c pc).hostOut = s.hostOut := rfl
@[simp] theorem State.setPc_faces (c : CoreId) (pc : Nat) : (s.setPc c pc).faces = s.faces := rfl
@[simp] theorem State.setPc_slabs (c : CoreId) (pc : Nat) : (s.setPc c pc).slabs = s.slabs := rfl
@[simp] theorem State.setPc_benches (c : CoreId) (pc : Nat) : (s.setPc c pc).benches = s.benches := rfl
@[simp] theorem State.setPc_mem (c : CoreId) (pc : Nat) : (s.setPc c pc).mem = s.mem := rfl
@[simp] theorem State.setPc_keyTags (c : CoreId) (pc : Nat) : (s.setPc c pc).keyTags = s.keyTags := rfl
@[simp] theorem State.setPc_keyGen (c : CoreId) (pc : Nat) : (s.setPc c pc).keyGen = s.keyGen := rfl
@[simp] theorem State.setPc_arb (c : CoreId) (pc : Nat) : (s.setPc c pc).arb = s.arb := rfl
@[simp] theorem State.setPc_verdicts (c : CoreId) (pc : Nat) : (s.setPc c pc).verdicts = s.verdicts := rfl
@[simp] theorem State.setPc_badLines (c : CoreId) (pc : Nat) : (s.setPc c pc).badLines = s.badLines := rfl
@[simp] theorem State.setPc_fabric (c : CoreId) (pc : Nat) : (s.setPc c pc).fabric = s.fabric := rfl
@[simp] theorem State.setPc_ports (c : CoreId) (pc : Nat) : (s.setPc c pc).ports = s.ports := rfl
@[simp] theorem State.setPc_dieNum (c : CoreId) (pc : Nat) : (s.setPc c pc).dieNum = s.dieNum := rfl
@[simp] theorem State.setPc_fm (c : CoreId) (pc : Nat) : (s.setPc c pc).fm = s.fm := rfl
@[simp] theorem State.setPc_msixOn (c : CoreId) (pc : Nat) : (s.setPc c pc).msixOn = s.msixOn := rfl
@[simp] theorem State.setPc_msixFnMask (c : CoreId) (pc : Nat) : (s.setPc c pc).msixFnMask = s.msixFnMask := rfl
@[simp] theorem State.setPc_retired (c : CoreId) (pc : Nat) : (s.setPc c pc).retired = s.retired := rfl
@[simp] theorem State.setPc_fuses (c : CoreId) (pc : Nat) : (s.setPc c pc).fuses = s.fuses := rfl
@[simp] theorem State.setPc_carapace (c : CoreId) (pc : Nat) : (s.setPc c pc).carapace = s.carapace := rfl
@[simp] theorem State.setPc_rings (c : CoreId) (pc : Nat) : (s.setPc c pc).rings = s.rings := rfl
@[simp] theorem State.setPc_turn (c : CoreId) (pc : Nat) : (s.setPc c pc).turn = s.turn := rfl
@[simp] theorem State.setPc_boot (c : CoreId) (pc : Nat) : (s.setPc c pc).boot = s.boot := rfl
@[simp] theorem State.setPc_safety (c : CoreId) (pc : Nat) : (s.setPc c pc).safety = s.safety := rfl
@[simp] theorem State.setPc_side (c : CoreId) (pc : Nat) : (s.setPc c pc).side = s.side := rfl

/-! ### writeG changes `cores` -/

@[simp] theorem State.writeG_pending (c : CoreId) (n : Nat) (v : DWord) : (s.writeG c n v).pending = s.pending := rfl
@[simp] theorem State.writeG_fresh (c : CoreId) (n : Nat) (v : DWord) : (s.writeG c n v).fresh = s.fresh := rfl
@[simp] theorem State.writeG_regs (c : CoreId) (n : Nat) (v : DWord) : (s.writeG c n v).regs = s.regs := rfl
@[simp] theorem State.writeG_shadow (c : CoreId) (n : Nat) (v : DWord) : (s.writeG c n v).shadow = s.shadow := rfl
@[simp] theorem State.writeG_path (c : CoreId) (n : Nat) (v : DWord) : (s.writeG c n v).path = s.path := rfl
@[simp] theorem State.writeG_readData (c : CoreId) (n : Nat) (v : DWord) : (s.writeG c n v).readData = s.readData := rfl
@[simp] theorem State.writeG_hostOut (c : CoreId) (n : Nat) (v : DWord) : (s.writeG c n v).hostOut = s.hostOut := rfl
@[simp] theorem State.writeG_faces (c : CoreId) (n : Nat) (v : DWord) : (s.writeG c n v).faces = s.faces := rfl
@[simp] theorem State.writeG_slabs (c : CoreId) (n : Nat) (v : DWord) : (s.writeG c n v).slabs = s.slabs := rfl
@[simp] theorem State.writeG_benches (c : CoreId) (n : Nat) (v : DWord) : (s.writeG c n v).benches = s.benches := rfl
@[simp] theorem State.writeG_mem (c : CoreId) (n : Nat) (v : DWord) : (s.writeG c n v).mem = s.mem := rfl
@[simp] theorem State.writeG_keyTags (c : CoreId) (n : Nat) (v : DWord) : (s.writeG c n v).keyTags = s.keyTags := rfl
@[simp] theorem State.writeG_keyGen (c : CoreId) (n : Nat) (v : DWord) : (s.writeG c n v).keyGen = s.keyGen := rfl
@[simp] theorem State.writeG_arb (c : CoreId) (n : Nat) (v : DWord) : (s.writeG c n v).arb = s.arb := rfl
@[simp] theorem State.writeG_verdicts (c : CoreId) (n : Nat) (v : DWord) : (s.writeG c n v).verdicts = s.verdicts := rfl
@[simp] theorem State.writeG_badLines (c : CoreId) (n : Nat) (v : DWord) : (s.writeG c n v).badLines = s.badLines := rfl
@[simp] theorem State.writeG_fabric (c : CoreId) (n : Nat) (v : DWord) : (s.writeG c n v).fabric = s.fabric := rfl
@[simp] theorem State.writeG_ports (c : CoreId) (n : Nat) (v : DWord) : (s.writeG c n v).ports = s.ports := rfl
@[simp] theorem State.writeG_dieNum (c : CoreId) (n : Nat) (v : DWord) : (s.writeG c n v).dieNum = s.dieNum := rfl
@[simp] theorem State.writeG_fm (c : CoreId) (n : Nat) (v : DWord) : (s.writeG c n v).fm = s.fm := rfl
@[simp] theorem State.writeG_msixOn (c : CoreId) (n : Nat) (v : DWord) : (s.writeG c n v).msixOn = s.msixOn := rfl
@[simp] theorem State.writeG_msixFnMask (c : CoreId) (n : Nat) (v : DWord) : (s.writeG c n v).msixFnMask = s.msixFnMask := rfl
@[simp] theorem State.writeG_retired (c : CoreId) (n : Nat) (v : DWord) : (s.writeG c n v).retired = s.retired := rfl
@[simp] theorem State.writeG_fuses (c : CoreId) (n : Nat) (v : DWord) : (s.writeG c n v).fuses = s.fuses := rfl
@[simp] theorem State.writeG_carapace (c : CoreId) (n : Nat) (v : DWord) : (s.writeG c n v).carapace = s.carapace := rfl
@[simp] theorem State.writeG_rings (c : CoreId) (n : Nat) (v : DWord) : (s.writeG c n v).rings = s.rings := rfl
@[simp] theorem State.writeG_turn (c : CoreId) (n : Nat) (v : DWord) : (s.writeG c n v).turn = s.turn := rfl
@[simp] theorem State.writeG_boot (c : CoreId) (n : Nat) (v : DWord) : (s.writeG c n v).boot = s.boot := rfl
@[simp] theorem State.writeG_safety (c : CoreId) (n : Nat) (v : DWord) : (s.writeG c n v).safety = s.safety := rfl
@[simp] theorem State.writeG_side (c : CoreId) (n : Nat) (v : DWord) : (s.writeG c n v).side = s.side := rfl

/-! ### setFlag changes `faces` -/

@[simp] theorem State.setFlag_pending (b u i : Nat) (v : Bool) : (s.setFlag b u i v).pending = s.pending := rfl
@[simp] theorem State.setFlag_fresh (b u i : Nat) (v : Bool) : (s.setFlag b u i v).fresh = s.fresh := rfl
@[simp] theorem State.setFlag_regs (b u i : Nat) (v : Bool) : (s.setFlag b u i v).regs = s.regs := rfl
@[simp] theorem State.setFlag_shadow (b u i : Nat) (v : Bool) : (s.setFlag b u i v).shadow = s.shadow := rfl
@[simp] theorem State.setFlag_path (b u i : Nat) (v : Bool) : (s.setFlag b u i v).path = s.path := rfl
@[simp] theorem State.setFlag_readData (b u i : Nat) (v : Bool) : (s.setFlag b u i v).readData = s.readData := rfl
@[simp] theorem State.setFlag_hostOut (b u i : Nat) (v : Bool) : (s.setFlag b u i v).hostOut = s.hostOut := rfl
@[simp] theorem State.setFlag_cores (b u i : Nat) (v : Bool) : (s.setFlag b u i v).cores = s.cores := rfl
@[simp] theorem State.setFlag_slabs (b u i : Nat) (v : Bool) : (s.setFlag b u i v).slabs = s.slabs := rfl
@[simp] theorem State.setFlag_benches (b u i : Nat) (v : Bool) : (s.setFlag b u i v).benches = s.benches := rfl
@[simp] theorem State.setFlag_mem (b u i : Nat) (v : Bool) : (s.setFlag b u i v).mem = s.mem := rfl
@[simp] theorem State.setFlag_keyTags (b u i : Nat) (v : Bool) : (s.setFlag b u i v).keyTags = s.keyTags := rfl
@[simp] theorem State.setFlag_keyGen (b u i : Nat) (v : Bool) : (s.setFlag b u i v).keyGen = s.keyGen := rfl
@[simp] theorem State.setFlag_arb (b u i : Nat) (v : Bool) : (s.setFlag b u i v).arb = s.arb := rfl
@[simp] theorem State.setFlag_verdicts (b u i : Nat) (v : Bool) : (s.setFlag b u i v).verdicts = s.verdicts := rfl
@[simp] theorem State.setFlag_badLines (b u i : Nat) (v : Bool) : (s.setFlag b u i v).badLines = s.badLines := rfl
@[simp] theorem State.setFlag_fabric (b u i : Nat) (v : Bool) : (s.setFlag b u i v).fabric = s.fabric := rfl
@[simp] theorem State.setFlag_ports (b u i : Nat) (v : Bool) : (s.setFlag b u i v).ports = s.ports := rfl
@[simp] theorem State.setFlag_dieNum (b u i : Nat) (v : Bool) : (s.setFlag b u i v).dieNum = s.dieNum := rfl
@[simp] theorem State.setFlag_fm (b u i : Nat) (v : Bool) : (s.setFlag b u i v).fm = s.fm := rfl
@[simp] theorem State.setFlag_msixOn (b u i : Nat) (v : Bool) : (s.setFlag b u i v).msixOn = s.msixOn := rfl
@[simp] theorem State.setFlag_msixFnMask (b u i : Nat) (v : Bool) : (s.setFlag b u i v).msixFnMask = s.msixFnMask := rfl
@[simp] theorem State.setFlag_retired (b u i : Nat) (v : Bool) : (s.setFlag b u i v).retired = s.retired := rfl
@[simp] theorem State.setFlag_fuses (b u i : Nat) (v : Bool) : (s.setFlag b u i v).fuses = s.fuses := rfl
@[simp] theorem State.setFlag_carapace (b u i : Nat) (v : Bool) : (s.setFlag b u i v).carapace = s.carapace := rfl
@[simp] theorem State.setFlag_rings (b u i : Nat) (v : Bool) : (s.setFlag b u i v).rings = s.rings := rfl
@[simp] theorem State.setFlag_turn (b u i : Nat) (v : Bool) : (s.setFlag b u i v).turn = s.turn := rfl
@[simp] theorem State.setFlag_boot (b u i : Nat) (v : Bool) : (s.setFlag b u i v).boot = s.boot := rfl
@[simp] theorem State.setFlag_safety (b u i : Nat) (v : Bool) : (s.setFlag b u i v).safety = s.safety := rfl
@[simp] theorem State.setFlag_side (b u i : Nat) (v : Bool) : (s.setFlag b u i v).side = s.side := rfl

/-! ### setCounter changes `faces` -/

@[simp] theorem State.setCounter_pending (b u c n : Nat) : (s.setCounter b u c n).pending = s.pending := rfl
@[simp] theorem State.setCounter_fresh (b u c n : Nat) : (s.setCounter b u c n).fresh = s.fresh := rfl
@[simp] theorem State.setCounter_regs (b u c n : Nat) : (s.setCounter b u c n).regs = s.regs := rfl
@[simp] theorem State.setCounter_shadow (b u c n : Nat) : (s.setCounter b u c n).shadow = s.shadow := rfl
@[simp] theorem State.setCounter_path (b u c n : Nat) : (s.setCounter b u c n).path = s.path := rfl
@[simp] theorem State.setCounter_readData (b u c n : Nat) : (s.setCounter b u c n).readData = s.readData := rfl
@[simp] theorem State.setCounter_hostOut (b u c n : Nat) : (s.setCounter b u c n).hostOut = s.hostOut := rfl
@[simp] theorem State.setCounter_cores (b u c n : Nat) : (s.setCounter b u c n).cores = s.cores := rfl
@[simp] theorem State.setCounter_slabs (b u c n : Nat) : (s.setCounter b u c n).slabs = s.slabs := rfl
@[simp] theorem State.setCounter_benches (b u c n : Nat) : (s.setCounter b u c n).benches = s.benches := rfl
@[simp] theorem State.setCounter_mem (b u c n : Nat) : (s.setCounter b u c n).mem = s.mem := rfl
@[simp] theorem State.setCounter_keyTags (b u c n : Nat) : (s.setCounter b u c n).keyTags = s.keyTags := rfl
@[simp] theorem State.setCounter_keyGen (b u c n : Nat) : (s.setCounter b u c n).keyGen = s.keyGen := rfl
@[simp] theorem State.setCounter_arb (b u c n : Nat) : (s.setCounter b u c n).arb = s.arb := rfl
@[simp] theorem State.setCounter_verdicts (b u c n : Nat) : (s.setCounter b u c n).verdicts = s.verdicts := rfl
@[simp] theorem State.setCounter_badLines (b u c n : Nat) : (s.setCounter b u c n).badLines = s.badLines := rfl
@[simp] theorem State.setCounter_fabric (b u c n : Nat) : (s.setCounter b u c n).fabric = s.fabric := rfl
@[simp] theorem State.setCounter_ports (b u c n : Nat) : (s.setCounter b u c n).ports = s.ports := rfl
@[simp] theorem State.setCounter_dieNum (b u c n : Nat) : (s.setCounter b u c n).dieNum = s.dieNum := rfl
@[simp] theorem State.setCounter_fm (b u c n : Nat) : (s.setCounter b u c n).fm = s.fm := rfl
@[simp] theorem State.setCounter_msixOn (b u c n : Nat) : (s.setCounter b u c n).msixOn = s.msixOn := rfl
@[simp] theorem State.setCounter_msixFnMask (b u c n : Nat) : (s.setCounter b u c n).msixFnMask = s.msixFnMask := rfl
@[simp] theorem State.setCounter_retired (b u c n : Nat) : (s.setCounter b u c n).retired = s.retired := rfl
@[simp] theorem State.setCounter_fuses (b u c n : Nat) : (s.setCounter b u c n).fuses = s.fuses := rfl
@[simp] theorem State.setCounter_carapace (b u c n : Nat) : (s.setCounter b u c n).carapace = s.carapace := rfl
@[simp] theorem State.setCounter_rings (b u c n : Nat) : (s.setCounter b u c n).rings = s.rings := rfl
@[simp] theorem State.setCounter_turn (b u c n : Nat) : (s.setCounter b u c n).turn = s.turn := rfl
@[simp] theorem State.setCounter_boot (b u c n : Nat) : (s.setCounter b u c n).boot = s.boot := rfl
@[simp] theorem State.setCounter_safety (b u c n : Nat) : (s.setCounter b u c n).safety = s.safety := rfl
@[simp] theorem State.setCounter_side (b u c n : Nat) : (s.setCounter b u c n).side = s.side := rfl

/-! ### pushTokens changes `faces` -/

@[simp] theorem State.pushTokens_pending (b u q n : Nat) : (s.pushTokens b u q n).pending = s.pending := rfl
@[simp] theorem State.pushTokens_fresh (b u q n : Nat) : (s.pushTokens b u q n).fresh = s.fresh := rfl
@[simp] theorem State.pushTokens_regs (b u q n : Nat) : (s.pushTokens b u q n).regs = s.regs := rfl
@[simp] theorem State.pushTokens_shadow (b u q n : Nat) : (s.pushTokens b u q n).shadow = s.shadow := rfl
@[simp] theorem State.pushTokens_path (b u q n : Nat) : (s.pushTokens b u q n).path = s.path := rfl
@[simp] theorem State.pushTokens_readData (b u q n : Nat) : (s.pushTokens b u q n).readData = s.readData := rfl
@[simp] theorem State.pushTokens_hostOut (b u q n : Nat) : (s.pushTokens b u q n).hostOut = s.hostOut := rfl
@[simp] theorem State.pushTokens_cores (b u q n : Nat) : (s.pushTokens b u q n).cores = s.cores := rfl
@[simp] theorem State.pushTokens_slabs (b u q n : Nat) : (s.pushTokens b u q n).slabs = s.slabs := rfl
@[simp] theorem State.pushTokens_benches (b u q n : Nat) : (s.pushTokens b u q n).benches = s.benches := rfl
@[simp] theorem State.pushTokens_mem (b u q n : Nat) : (s.pushTokens b u q n).mem = s.mem := rfl
@[simp] theorem State.pushTokens_keyTags (b u q n : Nat) : (s.pushTokens b u q n).keyTags = s.keyTags := rfl
@[simp] theorem State.pushTokens_keyGen (b u q n : Nat) : (s.pushTokens b u q n).keyGen = s.keyGen := rfl
@[simp] theorem State.pushTokens_arb (b u q n : Nat) : (s.pushTokens b u q n).arb = s.arb := rfl
@[simp] theorem State.pushTokens_verdicts (b u q n : Nat) : (s.pushTokens b u q n).verdicts = s.verdicts := rfl
@[simp] theorem State.pushTokens_badLines (b u q n : Nat) : (s.pushTokens b u q n).badLines = s.badLines := rfl
@[simp] theorem State.pushTokens_fabric (b u q n : Nat) : (s.pushTokens b u q n).fabric = s.fabric := rfl
@[simp] theorem State.pushTokens_ports (b u q n : Nat) : (s.pushTokens b u q n).ports = s.ports := rfl
@[simp] theorem State.pushTokens_dieNum (b u q n : Nat) : (s.pushTokens b u q n).dieNum = s.dieNum := rfl
@[simp] theorem State.pushTokens_fm (b u q n : Nat) : (s.pushTokens b u q n).fm = s.fm := rfl
@[simp] theorem State.pushTokens_msixOn (b u q n : Nat) : (s.pushTokens b u q n).msixOn = s.msixOn := rfl
@[simp] theorem State.pushTokens_msixFnMask (b u q n : Nat) : (s.pushTokens b u q n).msixFnMask = s.msixFnMask := rfl
@[simp] theorem State.pushTokens_retired (b u q n : Nat) : (s.pushTokens b u q n).retired = s.retired := rfl
@[simp] theorem State.pushTokens_fuses (b u q n : Nat) : (s.pushTokens b u q n).fuses = s.fuses := rfl
@[simp] theorem State.pushTokens_carapace (b u q n : Nat) : (s.pushTokens b u q n).carapace = s.carapace := rfl
@[simp] theorem State.pushTokens_rings (b u q n : Nat) : (s.pushTokens b u q n).rings = s.rings := rfl
@[simp] theorem State.pushTokens_turn (b u q n : Nat) : (s.pushTokens b u q n).turn = s.turn := rfl
@[simp] theorem State.pushTokens_boot (b u q n : Nat) : (s.pushTokens b u q n).boot = s.boot := rfl
@[simp] theorem State.pushTokens_safety (b u q n : Nat) : (s.pushTokens b u q n).safety = s.safety := rfl
@[simp] theorem State.pushTokens_side (b u q n : Nat) : (s.pushTokens b u q n).side = s.side := rfl

/-! ### popToken changes `faces` -/

@[simp] theorem State.popToken_pending (b u q : Nat) : (s.popToken b u q).pending = s.pending := rfl
@[simp] theorem State.popToken_fresh (b u q : Nat) : (s.popToken b u q).fresh = s.fresh := rfl
@[simp] theorem State.popToken_regs (b u q : Nat) : (s.popToken b u q).regs = s.regs := rfl
@[simp] theorem State.popToken_shadow (b u q : Nat) : (s.popToken b u q).shadow = s.shadow := rfl
@[simp] theorem State.popToken_path (b u q : Nat) : (s.popToken b u q).path = s.path := rfl
@[simp] theorem State.popToken_readData (b u q : Nat) : (s.popToken b u q).readData = s.readData := rfl
@[simp] theorem State.popToken_hostOut (b u q : Nat) : (s.popToken b u q).hostOut = s.hostOut := rfl
@[simp] theorem State.popToken_cores (b u q : Nat) : (s.popToken b u q).cores = s.cores := rfl
@[simp] theorem State.popToken_slabs (b u q : Nat) : (s.popToken b u q).slabs = s.slabs := rfl
@[simp] theorem State.popToken_benches (b u q : Nat) : (s.popToken b u q).benches = s.benches := rfl
@[simp] theorem State.popToken_mem (b u q : Nat) : (s.popToken b u q).mem = s.mem := rfl
@[simp] theorem State.popToken_keyTags (b u q : Nat) : (s.popToken b u q).keyTags = s.keyTags := rfl
@[simp] theorem State.popToken_keyGen (b u q : Nat) : (s.popToken b u q).keyGen = s.keyGen := rfl
@[simp] theorem State.popToken_arb (b u q : Nat) : (s.popToken b u q).arb = s.arb := rfl
@[simp] theorem State.popToken_verdicts (b u q : Nat) : (s.popToken b u q).verdicts = s.verdicts := rfl
@[simp] theorem State.popToken_badLines (b u q : Nat) : (s.popToken b u q).badLines = s.badLines := rfl
@[simp] theorem State.popToken_fabric (b u q : Nat) : (s.popToken b u q).fabric = s.fabric := rfl
@[simp] theorem State.popToken_ports (b u q : Nat) : (s.popToken b u q).ports = s.ports := rfl
@[simp] theorem State.popToken_dieNum (b u q : Nat) : (s.popToken b u q).dieNum = s.dieNum := rfl
@[simp] theorem State.popToken_fm (b u q : Nat) : (s.popToken b u q).fm = s.fm := rfl
@[simp] theorem State.popToken_msixOn (b u q : Nat) : (s.popToken b u q).msixOn = s.msixOn := rfl
@[simp] theorem State.popToken_msixFnMask (b u q : Nat) : (s.popToken b u q).msixFnMask = s.msixFnMask := rfl
@[simp] theorem State.popToken_retired (b u q : Nat) : (s.popToken b u q).retired = s.retired := rfl
@[simp] theorem State.popToken_fuses (b u q : Nat) : (s.popToken b u q).fuses = s.fuses := rfl
@[simp] theorem State.popToken_carapace (b u q : Nat) : (s.popToken b u q).carapace = s.carapace := rfl
@[simp] theorem State.popToken_rings (b u q : Nat) : (s.popToken b u q).rings = s.rings := rfl
@[simp] theorem State.popToken_turn (b u q : Nat) : (s.popToken b u q).turn = s.turn := rfl
@[simp] theorem State.popToken_boot (b u q : Nat) : (s.popToken b u q).boot = s.boot := rfl
@[simp] theorem State.popToken_safety (b u q : Nat) : (s.popToken b u q).safety = s.safety := rfl
@[simp] theorem State.popToken_side (b u q : Nat) : (s.popToken b u q).side = s.side := rfl

/-! ### setSh changes `shadow` -/

@[simp] theorem State.setSh_pending (d p o : Nat) (v : Word) : (s.setSh d p o v).pending = s.pending := rfl
@[simp] theorem State.setSh_fresh (d p o : Nat) (v : Word) : (s.setSh d p o v).fresh = s.fresh := rfl
@[simp] theorem State.setSh_regs (d p o : Nat) (v : Word) : (s.setSh d p o v).regs = s.regs := rfl
@[simp] theorem State.setSh_path (d p o : Nat) (v : Word) : (s.setSh d p o v).path = s.path := rfl
@[simp] theorem State.setSh_readData (d p o : Nat) (v : Word) : (s.setSh d p o v).readData = s.readData := rfl
@[simp] theorem State.setSh_hostOut (d p o : Nat) (v : Word) : (s.setSh d p o v).hostOut = s.hostOut := rfl
@[simp] theorem State.setSh_cores (d p o : Nat) (v : Word) : (s.setSh d p o v).cores = s.cores := rfl
@[simp] theorem State.setSh_faces (d p o : Nat) (v : Word) : (s.setSh d p o v).faces = s.faces := rfl
@[simp] theorem State.setSh_slabs (d p o : Nat) (v : Word) : (s.setSh d p o v).slabs = s.slabs := rfl
@[simp] theorem State.setSh_benches (d p o : Nat) (v : Word) : (s.setSh d p o v).benches = s.benches := rfl
@[simp] theorem State.setSh_mem (d p o : Nat) (v : Word) : (s.setSh d p o v).mem = s.mem := rfl
@[simp] theorem State.setSh_keyTags (d p o : Nat) (v : Word) : (s.setSh d p o v).keyTags = s.keyTags := rfl
@[simp] theorem State.setSh_keyGen (d p o : Nat) (v : Word) : (s.setSh d p o v).keyGen = s.keyGen := rfl
@[simp] theorem State.setSh_arb (d p o : Nat) (v : Word) : (s.setSh d p o v).arb = s.arb := rfl
@[simp] theorem State.setSh_verdicts (d p o : Nat) (v : Word) : (s.setSh d p o v).verdicts = s.verdicts := rfl
@[simp] theorem State.setSh_badLines (d p o : Nat) (v : Word) : (s.setSh d p o v).badLines = s.badLines := rfl
@[simp] theorem State.setSh_fabric (d p o : Nat) (v : Word) : (s.setSh d p o v).fabric = s.fabric := rfl
@[simp] theorem State.setSh_ports (d p o : Nat) (v : Word) : (s.setSh d p o v).ports = s.ports := rfl
@[simp] theorem State.setSh_dieNum (d p o : Nat) (v : Word) : (s.setSh d p o v).dieNum = s.dieNum := rfl
@[simp] theorem State.setSh_fm (d p o : Nat) (v : Word) : (s.setSh d p o v).fm = s.fm := rfl
@[simp] theorem State.setSh_msixOn (d p o : Nat) (v : Word) : (s.setSh d p o v).msixOn = s.msixOn := rfl
@[simp] theorem State.setSh_msixFnMask (d p o : Nat) (v : Word) : (s.setSh d p o v).msixFnMask = s.msixFnMask := rfl
@[simp] theorem State.setSh_retired (d p o : Nat) (v : Word) : (s.setSh d p o v).retired = s.retired := rfl
@[simp] theorem State.setSh_fuses (d p o : Nat) (v : Word) : (s.setSh d p o v).fuses = s.fuses := rfl
@[simp] theorem State.setSh_carapace (d p o : Nat) (v : Word) : (s.setSh d p o v).carapace = s.carapace := rfl
@[simp] theorem State.setSh_rings (d p o : Nat) (v : Word) : (s.setSh d p o v).rings = s.rings := rfl
@[simp] theorem State.setSh_turn (d p o : Nat) (v : Word) : (s.setSh d p o v).turn = s.turn := rfl
@[simp] theorem State.setSh_boot (d p o : Nat) (v : Word) : (s.setSh d p o v).boot = s.boot := rfl
@[simp] theorem State.setSh_safety (d p o : Nat) (v : Word) : (s.setSh d p o v).safety = s.safety := rfl
@[simp] theorem State.setSh_side (d p o : Nat) (v : Word) : (s.setSh d p o v).side = s.side := rfl

end Sys2Proof.Machine
end

