-- ==== Sys2Proof/Laws/Ops.lean ====
section
/-!
SUPPORT. What the shared operations do: reads after writes of registers, cores, units, Slabs, Benches and memory; and for each
operation that touches several of them, one lemma that says what it can change.
-/

namespace Sys2Proof.Machine

variable (s : State)

/-! ### Keys -/

/-- Registers of the map have different keys (R16). -/
theorem regKey_inj {d p o d' p' o' : Nat} (hp : p < 0x100) (ho : o < 0x1000) (hp' : p' < 0x100) (ho' : o' < 0x1000) :
    regKey d p o = regKey d' p' o' ↔ d = d' ∧ p = p' ∧ o = o' := by
  unfold regKey
  constructor
  · intro h
    omega
  · rintro ⟨rfl, rfl, rfl⟩
    rfl

/-! ### Reads after writes -/

/-- A register after a write of a register. -/
theorem State.reg_setReg (d p o d' p' o' : Nat) (v : Word) :
    (s.setReg d p o v).reg d' p' o' = if regKey d' p' o' = regKey d p o then v else s.reg d' p' o' := smGet_smSet _ _ _ _ _

@[simp] theorem State.reg_setReg_self (d p o : Nat) (v : Word) : (s.setReg d p o v).reg d p o = v := by simp [State.reg_setReg]

/-- A register after a write of a field. -/
theorem State.reg_setFld (d p o lo len v d' p' o' : Nat) :
    (s.setFld d p o lo len v).reg d' p' o' =
      if regKey d' p' o' = regKey d p o then wput (s.reg d p o) lo len v else s.reg d' p' o' := State.reg_setReg s d p o d' p' o' _

/-- A register after a counter advances. -/
theorem State.reg_bump (d p o n d' p' o' : Nat) :
    (s.bump d p o n).reg d' p' o' = if regKey d' p' o' = regKey d p o then satAdd (s.reg d p o) n else s.reg d' p' o' :=
  State.reg_setReg s d p o d' p' o' _

/-- A core after an update of a core. -/
theorem State.core_updCore (k j : Nat) (f : Core → Core) : (s.updCore k f).core j = if j = k then f (s.core k) else s.core j :=
  smGet_smSet _ _ _ _ _

/-- A unit after an update of a unit. -/
theorem State.face_updFace (b u b' u' : Nat) (f : Face → Face) :
    (s.updFace b u f).face b' u' = if faceKey b' u' = faceKey b u then f (s.face b u) else s.face b' u' := smGet_smSet _ _ _ _ _

/-- A Slab after an update of a Slab. -/
theorem State.slab_updSlab (b i b' i' : Nat) (f : Slab → Slab) :
    (s.updSlab b i f).slab b' i' = if b' * 32 + i' = b * 32 + i then f (s.slab b i) else s.slab b' i' := smGet_smSet _ _ _ _ _

/-- A Bench after an update of a Bench. -/
theorem State.bench_updBench (b b' : Nat) (f : Bench → Bench) :
    (s.updBench b f).bench b' = if b' = b then f (s.bench b) else s.bench b' := smGet_smSet _ _ _ _ _

/-- A port after an update of a port. -/
theorem State.port_updPort (d q d' q' : Nat) (f : Port → Port) :
    (s.updPort d q f).port d' q' = if d' * 8 + q' = d * 8 + q then f (s.port d q) else s.port d' q' := smGet_smSet _ _ _ _ _

/-- A byte after a store. -/
theorem State.byteAt_putBytes (l : Nat) (bs : List Byte) (k : Nat) :
    (s.putBytes l bs).byteAt k = if l ≤ k ∧ k < l + bs.length then bs.getD (k - l) 0 else s.byteAt k := smGet_smSetList _ _ _ _ _

/-! ### What an update leaves of the reads -/

@[simp] theorem State.reg_updCore (k : Nat) (f : Core → Core) (d p o : Nat) : (s.updCore k f).reg d p o = s.reg d p o := rfl
@[simp] theorem State.reg_updFace (b u : Nat) (f : Face → Face) (d p o : Nat) : (s.updFace b u f).reg d p o = s.reg d p o := rfl
@[simp] theorem State.reg_updSlab (b i : Nat) (f : Slab → Slab) (d p o : Nat) : (s.updSlab b i f).reg d p o = s.reg d p o := rfl
@[simp] theorem State.reg_updBench (b : Nat) (f : Bench → Bench) (d p o : Nat) : (s.updBench b f).reg d p o = s.reg d p o := rfl
@[simp] theorem State.reg_updPort (d q : Nat) (f : Port → Port) (e p o : Nat) : (s.updPort d q f).reg e p o = s.reg e p o := rfl
@[simp] theorem State.reg_putBytes (l : Nat) (bs : List Byte) (d p o : Nat) : (s.putBytes l bs).reg d p o = s.reg d p o := rfl
@[simp] theorem State.core_setReg (d p o : Nat) (v : Word) (k : Nat) : (s.setReg d p o v).core k = s.core k := rfl
@[simp] theorem State.core_setFld (d p o lo len v : Nat) (k : Nat) : (s.setFld d p o lo len v).core k = s.core k := rfl
@[simp] theorem State.core_bump (d p o n : Nat) (k : Nat) : (s.bump d p o n).core k = s.core k := rfl
@[simp] theorem State.core_updFace (b u : Nat) (f : Face → Face) (k : Nat) : (s.updFace b u f).core k = s.core k := rfl
@[simp] theorem State.core_updBench (b : Nat) (f : Bench → Bench) (k : Nat) : (s.updBench b f).core k = s.core k := rfl
@[simp] theorem State.core_updPort (d q : Nat) (f : Port → Port) (k : Nat) : (s.updPort d q f).core k = s.core k := rfl
@[simp] theorem State.core_putBytes (l : Nat) (bs : List Byte) (k : Nat) : (s.putBytes l bs).core k = s.core k := rfl
@[simp] theorem State.face_setReg (d p o : Nat) (v : Word) (b u : Nat) : (s.setReg d p o v).face b u = s.face b u := rfl
@[simp] theorem State.face_setFld (d p o lo len v : Nat) (b u : Nat) : (s.setFld d p o lo len v).face b u = s.face b u := rfl
@[simp] theorem State.face_bump (d p o n : Nat) (b u : Nat) : (s.bump d p o n).face b u = s.face b u := rfl
@[simp] theorem State.face_updCore (k : Nat) (f : Core → Core) (b u : Nat) : (s.updCore k f).face b u = s.face b u := rfl
@[simp] theorem State.face_updBench (b : Nat) (f : Bench → Bench) (b' u : Nat) : (s.updBench b f).face b' u = s.face b' u := rfl
@[simp] theorem State.face_updPort (d q : Nat) (f : Port → Port) (b u : Nat) : (s.updPort d q f).face b u = s.face b u := rfl
@[simp] theorem State.face_putBytes (l : Nat) (bs : List Byte) (b u : Nat) : (s.putBytes l bs).face b u = s.face b u := rfl
@[simp] theorem State.bench_setReg (d p o : Nat) (v : Word) (b : Nat) : (s.setReg d p o v).bench b = s.bench b := rfl
@[simp] theorem State.bench_setFld (d p o lo len v : Nat) (b : Nat) : (s.setFld d p o lo len v).bench b = s.bench b := rfl
@[simp] theorem State.bench_bump (d p o n : Nat) (b : Nat) : (s.bump d p o n).bench b = s.bench b := rfl
@[simp] theorem State.bench_updCore (k : Nat) (f : Core → Core) (b : Nat) : (s.updCore k f).bench b = s.bench b := rfl
@[simp] theorem State.bench_updFace (b u : Nat) (f : Face → Face) (b' : Nat) : (s.updFace b u f).bench b' = s.bench b' := rfl
@[simp] theorem State.bench_updPort (d q : Nat) (f : Port → Port) (b : Nat) : (s.updPort d q f).bench b = s.bench b := rfl
@[simp] theorem State.byteAt_setReg (d p o : Nat) (v : Word) (l : Nat) : (s.setReg d p o v).byteAt l = s.byteAt l := rfl
@[simp] theorem State.byteAt_updCore (k : Nat) (f : Core → Core) (l : Nat) : (s.updCore k f).byteAt l = s.byteAt l := rfl
@[simp] theorem State.byteAt_updFace (b u : Nat) (f : Face → Face) (l : Nat) : (s.updFace b u f).byteAt l = s.byteAt l := rfl
@[simp] theorem State.byteAt_updPort (d q : Nat) (f : Port → Port) (l : Nat) : (s.updPort d q f).byteAt l = s.byteAt l := rfl
@[simp] theorem State.byteAt_updBench (b : Nat) (f : Bench → Bench) (l : Nat) : (s.updBench b f).byteAt l = s.byteAt l := rfl

/-! ### Interrupts, faults, refusals -/

/-- `t` is `s` with other registers and, perhaps, more sent to the host. -/
def State.Notes (s t : State) : Prop := ∃ r h, t = { s with regs := r, hostOut := h }

theorem State.Notes.refl : State.Notes s s := ⟨s.regs, s.hostOut, rfl⟩

theorem State.Notes.trans {s t u : State} (a : State.Notes s t) (b : State.Notes t u) : State.Notes s u := by
  obtain ⟨r, h, rfl⟩ := a
  obtain ⟨r', h', rfl⟩ := b
  exact ⟨r', h', rfl⟩

theorem State.setReg_notes (d p o : Nat) (v : Word) : State.Notes s (s.setReg d p o v) := ⟨_, s.hostOut, rfl⟩

theorem State.setFld_notes (d p o lo len v : Nat) : State.Notes s (s.setFld d p o lo len v) := ⟨_, s.hostOut, rfl⟩

theorem State.bump_notes (d p o n : Nat) : State.Notes s (s.bump d p o n) := ⟨_, s.hostOut, rfl⟩

/-- A message sent or held back. -/
theorem State.sendVector_notes (v : Nat) : State.Notes s (s.sendVector v) := by
  unfold State.sendVector
  split
  · exact s.setFld_notes _ _ _ _ _ _
  · exact ⟨s.regs, _, rfl⟩

/-- The summary of interrupts brought up to date. -/
theorem State.noteIrq_notes (d p : Nat) : State.Notes s (s.noteIrq d p) := by
  unfold State.noteIrq
  simp only
  split
  · exact ((s.setFld_notes _ _ _ _ _ _).trans (State.setFld_notes _ _ _ _ _ _ _)).trans (State.sendVector_notes _ _)
  · exact (s.setFld_notes _ _ _ _ _ _).trans (State.setFld_notes _ _ _ _ _ _ _)

/-- Interrupt bits raised. -/
theorem State.raise_notes (d p m : Nat) : State.Notes s (s.raise d p m) := (s.setReg_notes _ _ _ _).trans (State.noteIrq_notes _ _ _)

/-- STAT.FLT set. -/
theorem State.setFlt_notes (d p : Nat) : State.Notes s (s.setFlt d p) := by
  unfold State.setFlt
  split
  · exact State.Notes.refl s
  · exact (s.setFld_notes _ _ _ _ _ _).trans (State.raise_notes _ _ _ _)

/-- A refusal recorded. -/
theorem State.refuse_notes (d p cls word code : Nat) : State.Notes s (s.refuse d p cls word code) :=
  ((s.setReg_notes _ _ _ _).trans (State.setFld_notes _ _ _ _ _ _ _)).trans (State.raise_notes _ _ _ _)

/-- A message sent or held back writes no register but the pending bits of the MSI-X page. -/
theorem State.reg_sendVector {d p o : Nat} (v : Nat) (h : ∀ o', regKey d p o ≠ regKey 20 0xC1 o') : (s.sendVector v).reg d p o = s.reg d p o := by
  unfold State.sendVector
  split
  · rw [State.reg_setFld, if_neg (h _)]
  · rfl

/-- A register outside page 0 and the MSI-X pages of die 20 does not change when interrupts are noted. -/
theorem State.reg_noteIrq {d p o : Nat} (d' p' : Nat) (h0 : ∀ o', regKey d p o ≠ regKey 20 0 o') (h : ∀ o', regKey d p o ≠ regKey 20 0xC1 o') :
    (s.noteIrq d' p').reg d p o = s.reg d p o := by
  unfold State.noteIrq
  simp only
  split
  · rw [State.reg_sendVector _ _ h, State.reg_setFld, if_neg (h0 _), State.reg_setFld, if_neg (h0 _)]
  · rw [State.reg_setFld, if_neg (h0 _), State.reg_setFld, if_neg (h0 _)]

end Sys2Proof.Machine
end

