-- ==== Sys2Proof/Laws/Links.lean ====
section
/-!
SUPPORT. What forming a frame can do (R263, R264): its shape, and what it leaves of the port.
-/

namespace Sys2Proof.Machine

/-- A frame carries at most 36 data flits (R263). -/
theorem dataRoom_le (n : Nat) : dataRoom n ≤ 36 := Nat.min_le_left _ _

/-- A frame is 40 flits (R263). -/
theorem Fill.frame_length (f : Fill) (h : f.heads.length ≤ 39) : (f.frame).1.flits.length = 40 := by
  simp only [Fill.frame, dataRoom, List.length_append, List.length_map, List.length_take, List.length_replicate, List.length_singleton]
  omega

/-- A frame is numbered with the port's next number, and kept until it is acknowledged (R264). -/
theorem Fill.frame_kept (f : Fill) :
    (f.frame).1.seq = f.port.next ∧ (f.frame).2.next = (f.port.next + 1) % 65536 ∧ (f.frame).2.replay = f.port.replay ++ [(f.frame).1] :=
  ⟨rfl, rfl, rfl⟩

/-- The data flits that a frame takes are the first of those that wait, and the rest goes on waiting in its order (R267). -/
theorem Fill.frame_tail (f : Fill) : (f.frame).2.tail = f.port.tail.drop (dataRoom f.heads.length) := by
  show f.port.tail.drop (f.port.tail.take _).length = _
  rcases Nat.le_total (dataRoom f.heads.length) f.port.tail.length with h | h
  · rw [List.length_take, Nat.min_eq_left h]
  · rw [List.length_take, Nat.min_eq_right h, List.drop_length, List.drop_eq_nil_of_le h]

/-- Cells charged and returned of a channel leave the others alone (R269). -/
theorem Port.charge_other (p : Port) (r v n w : Nat) (h : w ≠ v) :
    smGet (fun _ => 0) (p.charge r v n).reserved w = smGet (fun _ => 0) p.reserved w
      ∧ smGet (fun _ => 0) (p.charge r v n).shared w = smGet (fun _ => 0) p.shared w := by
  simp [Port.charge, smGet_smSet, h]

/-- As `Port.charge_other`, for cells returned. -/
theorem Port.refill_other (p : Port) (v n w : Nat) (h : w ≠ v) :
    smGet (fun _ => 0) (p.refill v n).reserved w = smGet (fun _ => 0) p.reserved w
      ∧ smGet (fun _ => 0) (p.refill v n).shared w = smGet (fun _ => 0) p.shared w := by
  simp [Port.refill, smGet_smSet, h]

end Sys2Proof.Machine
end

