-- ==== Sys2Proof/Laws/Memory.lean ====
section
/-!
SUPPORT. Every operation over memory, registers and shadows keeps their canonical form, and reset has it.
-/

namespace Sys2Proof.Machine

variable {s : State}

/-- Reset lists nothing. -/
theorem State.reset_canonical : State.reset.Canonical := ⟨rfl, rfl, rfl⟩

/-- Reset's memory is in its canonical form. -/
theorem State.reset_mem_wf : Memory.wf State.reset.mem = true := rfl

theorem State.Canonical.putBytes (h : s.Canonical) (l : Nat) (bs : List Byte) : (s.putBytes l bs).Canonical :=
  ⟨smWf_smSetList _ _ _ _ h.1, h.2⟩

/-- Part of memory cleared. -/
theorem State.Canonical.clearMem (h : s.Canonical) (p : Nat → Bool) : ({ s with mem := smClear s.mem p } : State).Canonical :=
  ⟨smWf_smClear _ _ _ h.1, h.2⟩

theorem State.Canonical.clearRegion (h : s.Canonical) (r d u : Nat) : (s.clearRegion r d u).Canonical := by
  unfold State.clearRegion; exact h.clearMem _

theorem State.Canonical.clearRange (h : s.Canonical) (l n : Nat) : (s.clearRange l n).Canonical := by
  unfold State.clearRange; exact h.clearMem _

theorem State.Canonical.setReg (h : s.Canonical) (d p o : Nat) (v : Word) : (s.setReg d p o v).Canonical :=
  ⟨h.1, smWf_smSet _ _ _ _ h.2.1, h.2.2⟩

theorem State.Canonical.setFld (h : s.Canonical) (d p o lo len v : Nat) : (s.setFld d p o lo len v).Canonical := h.setReg _ _ _ _

theorem State.Canonical.bump (h : s.Canonical) (d p o n : Nat) : (s.bump d p o n).Canonical := h.setReg _ _ _ _

theorem State.Canonical.setSh (h : s.Canonical) (d p o : Nat) (v : Word) : (s.setSh d p o v).Canonical :=
  ⟨h.1, h.2.1, smWf_smSet _ _ _ _ h.2.2⟩

/-- Registers cleared to their reset values. -/
theorem State.Canonical.clearRegs (h : s.Canonical) (p : Nat → Bool) : ({ s with regs := smClear s.regs p } : State).Canonical :=
  ⟨h.1, smWf_smClear _ _ _ h.2.1, h.2.2⟩

/-- Shadows cleared to their reset values. -/
theorem State.Canonical.clearShadow (h : s.Canonical) (p : Nat → Bool) : ({ s with shadow := smClear s.shadow p } : State).Canonical :=
  ⟨h.1, h.2.1, smWf_smClear _ _ _ h.2.2⟩

theorem State.Canonical.updCore (h : s.Canonical) (k : Nat) (f : Core → Core) : (s.updCore k f).Canonical := h
theorem State.Canonical.updFace (h : s.Canonical) (b u : Nat) (f : Face → Face) : (s.updFace b u f).Canonical := h
theorem State.Canonical.updSlab (h : s.Canonical) (b i : Nat) (f : Slab → Slab) : (s.updSlab b i f).Canonical := h
theorem State.Canonical.updBench (h : s.Canonical) (b : Nat) (f : Bench → Bench) : (s.updBench b f).Canonical := h

theorem State.Canonical.send (h : s.Canonical) (p : Packet) : (s.send p).Canonical := by
  unfold State.send State.reach State.queueAt State.updPort
  simp only
  split
  · split
    · exact ⟨h.1, smWf_smSet _ _ _ _ h.2.1, h.2.2⟩
    · exact h
  · split
    · exact h
    · split
      · exact h
      · exact h

theorem State.Canonical.draw (h : s.Canonical) : s.draw.Canonical := h

/-- A store by an agent, held, dropped or made. -/
theorem State.Canonical.storeAs (h : s.Canonical) (b ag l : Nat) (bs : List Byte) : (s.storeAs b ag l bs).Canonical := by
  unfold State.storeAs
  simp only
  split
  · exact h.updBench _ _
  · split
    · exact h.bump _ _ _ _
    · exact h.putBytes _ _

/-- A list of stores. -/
theorem State.Canonical.storesAs (h : s.Canonical) (b ag : Nat) (ws : List (Nat × List Byte)) : (s.storesAs b ag ws).Canonical := by
  unfold State.storesAs
  induction ws generalizing s with
  | nil => exact h
  | cons w ws ih => exact ih (h.storeAs _ _ _ _)

/-- Interrupts raised. -/
theorem State.Canonical.raise (h : s.Canonical) (d p m : Nat) : (s.raise d p m).Canonical := by
  unfold State.raise State.noteIrq State.sendVector
  simp only
  split
  · split
    · exact (((h.setReg _ _ _ _).setFld _ _ _ _ _ _).setFld _ _ _ _ _ _).setFld _ _ _ _ _ _
    · exact ((h.setReg _ _ _ _).setFld _ _ _ _ _ _).setFld _ _ _ _ _ _
  · exact ((h.setReg _ _ _ _).setFld _ _ _ _ _ _).setFld _ _ _ _ _ _

/-- A refusal recorded. -/
theorem State.Canonical.refuse (h : s.Canonical) (d p cls word code : Nat) : (s.refuse d p cls word code).Canonical :=
  ((h.setReg _ _ _ _).setFld _ _ _ _ _ _).raise _ _ _

end Sys2Proof.Machine
end

