-- ==== Sys2Proof/Laws/PerInstr.lean ====
section
/-!
SUPPORT. One lemma for each command: which of them has an ill-formed form, and what that form is. Only SHUPD and SAMPLE_PRELOAD
carry a list whose length a row fixes.
-/

namespace Sys2Proof.Laws

/-- A command that is not well formed is a SHUPD with no value or more than 16, or a SAMPLE_PRELOAD whose pins are not 416. -/
def Shape.Statement (i : Instr) : Prop :=
  i.wellFormed = false →
    (∃ p off vals, i = .shupd p off vals ∧ (vals = [] ∨ 16 < vals.length)) ∨ (∃ pins pre, i = .samplePreload pins pre ∧ pins.length ≠ 416)

theorem Shape.registerWrite (ws) : Shape.Statement (.registerWrite ws) := fun h => by cases h
theorem Shape.ctlSrst (w) : Shape.Statement (.ctlSrst w) := fun h => by cases h
theorem Shape.ctlQuiesceRequest (w) : Shape.Statement (.ctlQuiesceRequest w) := fun h => by cases h
theorem Shape.ctlQuiesceClear (w) : Shape.Statement (.ctlQuiesceClear w) := fun h => by cases h
theorem Shape.ctlEnable (w) : Shape.Statement (.ctlEnable w) := fun h => by cases h
theorem Shape.ctlDisable (w) : Shape.Statement (.ctlDisable w) := fun h => by cases h
theorem Shape.ctlLock (w) : Shape.Statement (.ctlLock w) := fun h => by cases h
theorem Shape.consistencyCheckResult (p) : Shape.Statement (.consistencyCheckResult p) := fun h => by cases h
theorem Shape.heldWriteApply (p) : Shape.Statement (.heldWriteApply p) := fun h => by cases h
theorem Shape.quiesced (p) : Shape.Statement (.quiesced p) := fun h => by cases h
theorem Shape.readClear (r) : Shape.Statement (.readClear r) := fun h => by cases h
theorem Shape.irqSet (w) : Shape.Statement (.irqSet w) := fun h => by cases h
theorem Shape.wbgDrain (a data) : Shape.Statement (.wbgDrain a data) := fun h => by cases h
theorem Shape.writeDrainDone : Shape.Statement (.writeDrainDone) := fun h => by cases h
theorem Shape.wbgIrqrearm (a data) : Shape.Statement (.wbgIrqrearm a data) := fun h => by cases h
theorem Shape.msixVectorUnmask (m) : Shape.Statement (.msixVectorUnmask m) := fun h => by cases h
theorem Shape.regwr (p) : Shape.Statement (.regwr p) := fun h => by cases h
theorem Shape.regack (tag) : Shape.Statement (.regack tag) := fun h => by cases h
/-- SHUPD. -/
theorem Shape.shupd (p off vals) : Shape.Statement (.shupd p off vals) := by
  intro h
  refine .inl ⟨p, off, vals, rfl, ?_⟩
  cases vals with
  | nil => exact .inl rfl
  | cons v vs =>
    refine .inr ?_
    simp [Instr.wellFormed, shupdFits] at h
    simp
    omega

theorem Shape.shreq (p) : Shape.Statement (.shreq p) := fun h => by cases h
theorem Shape.sysNop (c) : Shape.Statement (.sysNop c) := fun h => by cases h
theorem Shape.park (c) : Shape.Statement (.park c) := fun h => by cases h
theorem Shape.trap (c) : Shape.Statement (.trap c) := fun h => by cases h
theorem Shape.fence (c) : Shape.Statement (.fence c) := fun h => by cases h
theorem Shape.swap (c) : Shape.Statement (.swap c) := fun h => by cases h
theorem Shape.bankSwapCommit (c) : Shape.Statement (.bankSwapCommit c) := fun h => by cases h
theorem Shape.alu (c) : Shape.Statement (.alu c) := fun h => by cases h
theorem Shape.addi (c) : Shape.Statement (.addi c) := fun h => by cases h
theorem Shape.andi (c) : Shape.Statement (.andi c) := fun h => by cases h
theorem Shape.ori (c) : Shape.Statement (.ori c) := fun h => by cases h
theorem Shape.xori (c) : Shape.Statement (.xori c) := fun h => by cases h
theorem Shape.shi (c) : Shape.Statement (.shi c) := fun h => by cases h
theorem Shape.movw (c) : Shape.Statement (.movw c) := fun h => by cases h
theorem Shape.ld (c) : Shape.Statement (.ld c) := fun h => by cases h
theorem Shape.st (c) : Shape.Statement (.st c) := fun h => by cases h
theorem Shape.br (c) : Shape.Statement (.br c) := fun h => by cases h
theorem Shape.jal (c) : Shape.Statement (.jal c) := fun h => by cases h
theorem Shape.jalr (c) : Shape.Statement (.jalr c) := fun h => by cases h
theorem Shape.csr (c) : Shape.Statement (.csr c) := fun h => by cases h
theorem Shape.lselWrite (c) : Shape.Statement (.lselWrite c) := fun h => by cases h
theorem Shape.fset (c) : Shape.Statement (.fset c) := fun h => by cases h
theorem Shape.fclr (c) : Shape.Statement (.fclr c) := fun h => by cases h
theorem Shape.cadd (c) : Shape.Statement (.cadd c) := fun h => by cases h
theorem Shape.cset (c) : Shape.Statement (.cset c) := fun h => by cases h
theorem Shape.vf32 (c) : Shape.Statement (.vf32 c) := fun h => by cases h
theorem Shape.vtabf (c) : Shape.Statement (.vtabf c) := fun h => by cases h
theorem Shape.vtabd (c) : Shape.Statement (.vtabd c) := fun h => by cases h
theorem Shape.vbf16 (c) : Shape.Statement (.vbf16 c) := fun h => by cases h
theorem Shape.vfp16 (c) : Shape.Statement (.vfp16 c) := fun h => by cases h
theorem Shape.vi32 (c) : Shape.Statement (.vi32 c) := fun h => by cases h
theorem Shape.vcmp (c) : Shape.Statement (.vcmp c) := fun h => by cases h
theorem Shape.vcvt (c) : Shape.Statement (.vcvt c) := fun h => by cases h
theorem Shape.vld (c) : Shape.Statement (.vld c) := fun h => by cases h
theorem Shape.vst (c) : Shape.Statement (.vst c) := fun h => by cases h
theorem Shape.vcompress (c) : Shape.Statement (.vcompress c) := fun h => by cases h
theorem Shape.vexpand (c) : Shape.Statement (.vexpand c) := fun h => by cases h
theorem Shape.vbcast (c) : Shape.Statement (.vbcast c) := fun h => by cases h
theorem Shape.vmovg (c) : Shape.Statement (.vmovg c) := fun h => by cases h
theorem Shape.vsummary (c) : Shape.Statement (.vsummary c) := fun h => by cases h
theorem Shape.viota (c) : Shape.Statement (.viota c) := fun h => by cases h
theorem Shape.pred (c) : Shape.Statement (.pred c) := fun h => by cases h
theorem Shape.mma (c) : Shape.Statement (.mma c) := fun h => by cases h
theorem Shape.mmaAcc (c) : Shape.Statement (.mmaAcc c) := fun h => by cases h
theorem Shape.tileLoadStationary (c) : Shape.Statement (.tileLoadStationary c) := fun h => by cases h
theorem Shape.tileDrain (c) : Shape.Statement (.tileDrain c) := fun h => by cases h
theorem Shape.chuteMv (c) : Shape.Statement (.chuteMv c) := fun h => by cases h
theorem Shape.haul (c) : Shape.Statement (.haul c) := fun h => by cases h
theorem Shape.wgatherRows (c) : Shape.Statement (.wgatherRows c) := fun h => by cases h
theorem Shape.wgatherExpand (c) : Shape.Statement (.wgatherExpand c) := fun h => by cases h
theorem Shape.wgatherPack (c) : Shape.Statement (.wgatherPack c) := fun h => by cases h
theorem Shape.wmerge (c) : Shape.Statement (.wmerge c) := fun h => by cases h
theorem Shape.wsegred (c) : Shape.Statement (.wsegred c) := fun h => by cases h
theorem Shape.wroute (c) : Shape.Statement (.wroute c) := fun h => by cases h
theorem Shape.coll (c) : Shape.Statement (.coll c) := fun h => by cases h
theorem Shape.taskBegin (c) : Shape.Statement (.taskBegin c) := fun h => by cases h
theorem Shape.taskEnd (c) : Shape.Statement (.taskEnd c) := fun h => by cases h
theorem Shape.guard (u) : Shape.Statement (.guard u) := fun h => by cases h
theorem Shape.taskEndAbort (u) : Shape.Statement (.taskEndAbort u) := fun h => by cases h
theorem Shape.lsync (c) : Shape.Statement (.lsync c) := fun h => by cases h
theorem Shape.lsyncRelease (c) : Shape.Statement (.lsyncRelease c) := fun h => by cases h
theorem Shape.queueEntryStart (u q par) : Shape.Statement (.queueEntryStart u q par) := fun h => by cases h
theorem Shape.slabLoadComplete (u k) : Shape.Statement (.slabLoadComplete u k) := fun h => by cases h
theorem Shape.slabStreamComplete (u) : Shape.Statement (.slabStreamComplete u) := fun h => by cases h
theorem Shape.completionTokenPush (u q) : Shape.Statement (.completionTokenPush u q) := fun h => by cases h
theorem Shape.tileEnterQueue (u) : Shape.Statement (.tileEnterQueue u) := fun h => by cases h
theorem Shape.tileDrainComplete (u) : Shape.Statement (.tileDrainComplete u) := fun h => by cases h
theorem Shape.chuteComplete (u) : Shape.Statement (.chuteComplete u) := fun h => by cases h
theorem Shape.slbTest (w) : Shape.Statement (.slbTest w) := fun h => by cases h
theorem Shape.selfTestDone (b slab failing) : Shape.Statement (.selfTestDone b slab failing) := fun h => by cases h
theorem Shape.ringSlotComplete (u r) : Shape.Statement (.ringSlotComplete u r) := fun h => by cases h
theorem Shape.ringSignalDeferred (u) : Shape.Statement (.ringSignalDeferred u) := fun h => by cases h
theorem Shape.vecSeedLd (w) : Shape.Statement (.vecSeedLd w) := fun h => by cases h
theorem Shape.sieveTensorClose (u ch) : Shape.Statement (.sieveTensorClose u ch) := fun h => by cases h
theorem Shape.weevilOpComplete (u) : Shape.Statement (.weevilOpComplete u) := fun h => by cases h
theorem Shape.wrouteComplete (u) : Shape.Statement (.wrouteComplete u) := fun h => by cases h
theorem Shape.rsig (p) : Shape.Statement (.rsig p) := fun h => by cases h
theorem Shape.remoteSignalRoomApply (u) : Shape.Statement (.remoteSignalRoomApply u) := fun h => by cases h
theorem Shape.depStall (u) : Shape.Statement (.depStall u) := fun h => by cases h
theorem Shape.depmodeWrite (w) : Shape.Statement (.depmodeWrite w) := fun h => by cases h
theorem Shape.fccResume (w) : Shape.Statement (.fccResume w) := fun h => by cases h
theorem Shape.fccExcClr (w) : Shape.Statement (.fccExcClr w) := fun h => by cases h
theorem Shape.benchHaulerAccept (u) : Shape.Statement (.benchHaulerAccept u) := fun h => by cases h
theorem Shape.haulComplete (h) : Shape.Statement (.haulComplete h) := fun h => by cases h
theorem Shape.hlrKick (w) : Shape.Statement (.hlrKick w) := fun h => by cases h
theorem Shape.kickRunStart (h) : Shape.Statement (.kickRunStart h) := fun h => by cases h
theorem Shape.xltInv (w) : Shape.Statement (.xltInv w) := fun h => by cases h
theorem Shape.xltInvDone (b) : Shape.Statement (.xltInvDone b) := fun h => by cases h
theorem Shape.xltWalkDone (b ag va wr) : Shape.Statement (.xltWalkDone b ag va wr) := fun h => by cases h
theorem Shape.bankCapRelease (b) : Shape.Statement (.bankCapRelease b) := fun h => by cases h
theorem Shape.memoryRequestTimeout (b tag) : Shape.Statement (.memoryRequestTimeout b tag) := fun h => by cases h
theorem Shape.galFlushWriteback (w) : Shape.Statement (.galFlushWriteback w) := fun h => by cases h
theorem Shape.galFlushInvalidate (w) : Shape.Statement (.galFlushInvalidate w) := fun h => by cases h
theorem Shape.galFlushDone (b) : Shape.Statement (.galFlushDone b) := fun h => by cases h
theorem Shape.galEpochFence (w) : Shape.Statement (.galEpochFence w) := fun h => by cases h
theorem Shape.galleryWayClearDone (b) : Shape.Statement (.galleryWayClearDone b) := fun h => by cases h
theorem Shape.hbmTrain (w) : Shape.Statement (.hbmTrain w) := fun h => by cases h
theorem Shape.hbmTrainDone (b stack failing) : Shape.Statement (.hbmTrainDone b stack failing) := fun h => by cases h
theorem Shape.stkTrain (w) : Shape.Statement (.stkTrain w) := fun h => by cases h
theorem Shape.stkTrainDone (q pkg failing) : Shape.Statement (.stkTrainDone q pkg failing) := fun h => by cases h
theorem Shape.patrolScrub (c line e) : Shape.Statement (.patrolScrub c line e) := fun h => by cases h
theorem Shape.reduce (u) : Shape.Statement (.reduce u) := fun h => by cases h
theorem Shape.gather (u) : Shape.Statement (.gather u) := fun h => by cases h
theorem Shape.bcast (u) : Shape.Statement (.bcast u) := fun h => by cases h
theorem Shape.atomicBatch (u) : Shape.Statement (.atomicBatch u) := fun h => by cases h
theorem Shape.atomicBatchComplete (u) : Shape.Statement (.atomicBatchComplete u) := fun h => by cases h
theorem Shape.prefetch (u) : Shape.Statement (.prefetch u) := fun h => by cases h
theorem Shape.prefetchComplete (u) : Shape.Statement (.prefetchComplete u) := fun h => by cases h
theorem Shape.frameReceive (p fr) : Shape.Statement (.frameReceive p fr) := fun h => by cases h
theorem Shape.rdreq (p) : Shape.Statement (.rdreq p) := fun h => by cases h
theorem Shape.rdrsp (p) : Shape.Statement (.rdrsp p) := fun h => by cases h
theorem Shape.wrreq (p) : Shape.Statement (.wrreq p) := fun h => by cases h
theorem Shape.wrack (p) : Shape.Statement (.wrack p) := fun h => by cases h
theorem Shape.atomreq (p) : Shape.Statement (.atomreq p) := fun h => by cases h
theorem Shape.atomrsp (p) : Shape.Statement (.atomrsp p) := fun h => by cases h
theorem Shape.disc (p) : Shape.Statement (.disc p) := fun h => by cases h
theorem Shape.discrsp (p) : Shape.Statement (.discrsp p) := fun h => by cases h
theorem Shape.rtload (p) : Shape.Statement (.rtload p) := fun h => by cases h
theorem Shape.fctlEnter (p) : Shape.Statement (.fctlEnter p) := fun h => by cases h
theorem Shape.fctlMode (p) : Shape.Statement (.fctlMode p) := fun h => by cases h
theorem Shape.fctlLeave (p) : Shape.Statement (.fctlLeave p) := fun h => by cases h
theorem Shape.lnkTrain (w) : Shape.Statement (.lnkTrain w) := fun h => by cases h
theorem Shape.linkTrainingDone (p tx rx) : Shape.Statement (.linkTrainingDone p tx rx) := fun h => by cases h
theorem Shape.laneSwap (p lane) : Shape.Statement (.laneSwap p lane) := fun h => by cases h
theorem Shape.laneSwapDone (p) : Shape.Statement (.laneSwapDone p) := fun h => by cases h
theorem Shape.discovery (rep) : Shape.Statement (.discovery rep) := fun h => by cases h
theorem Shape.lnkFence (a data) : Shape.Statement (.lnkFence a data) := fun h => by cases h
theorem Shape.lnkReadmit (a data) : Shape.Statement (.lnkReadmit a data) := fun h => by cases h
theorem Shape.fenceQuiet : Shape.Statement (.fenceQuiet) := fun h => by cases h
theorem Shape.fenceEnterTimeout : Shape.Statement (.fenceEnterTimeout) := fun h => by cases h
theorem Shape.fabricRequestTimeout (b tag) : Shape.Statement (.fabricRequestTimeout b tag) := fun h => by cases h
theorem Shape.rdata (p) : Shape.Statement (.rdata p) := fun h => by cases h
theorem Shape.rgnt (p) : Shape.Statement (.rgnt p) := fun h => by cases h
theorem Shape.bdata (p) : Shape.Statement (.bdata p) := fun h => by cases h
theorem Shape.ldata (p) : Shape.Statement (.ldata p) := fun h => by cases h
theorem Shape.el7Land (b) : Shape.Statement (.el7Land b) := fun h => by cases h
theorem Shape.abort (p) : Shape.Statement (.abort p) := fun h => by cases h
theorem Shape.crusherSlotComplete (b seq tree chunk) : Shape.Statement (.crusherSlotComplete b seq tree chunk) := fun h => by cases h
theorem Shape.collComplete (b seq) : Shape.Statement (.collComplete b seq) := fun h => by cases h
theorem Shape.collTimeout (b seq) : Shape.Statement (.collTimeout b seq) := fun h => by cases h
theorem Shape.moltChunkTake (b) : Shape.Statement (.moltChunkTake b) := fun h => by cases h
theorem Shape.passClose (b) : Shape.Statement (.passClose b) := fun h => by cases h
theorem Shape.guardVerdict (b) : Shape.Statement (.guardVerdict b) := fun h => by cases h
theorem Shape.specDrainDone (b) : Shape.Statement (.specDrainDone b) := fun h => by cases h
theorem Shape.specStallTimeout (b) : Shape.Statement (.specStallTimeout b) := fun h => by cases h
theorem Shape.sqTail (ring count) : Shape.Statement (.sqTail ring count) := fun h => by cases h
theorem Shape.cqHead (ring count) : Shape.Statement (.cqHead ring count) := fun h => by cases h
theorem Shape.commandFetch : Shape.Statement (.commandFetch) := fun h => by cases h
theorem Shape.hostReadCompletion (ring data) : Shape.Statement (.hostReadCompletion ring data) := fun h => by cases h
theorem Shape.hostReadTimeout (ring failure) : Shape.Statement (.hostReadTimeout ring failure) := fun h => by cases h
theorem Shape.nop (ring) : Shape.Statement (.nop ring) := fun h => by cases h
theorem Shape.writeCmd (ring) : Shape.Statement (.writeCmd ring) := fun h => by cases h
theorem Shape.readCmd (ring) : Shape.Statement (.readCmd ring) := fun h => by cases h
theorem Shape.code (ring) : Shape.Statement (.code ring) := fun h => by cases h
theorem Shape.run (ring) : Shape.Statement (.run ring) := fun h => by cases h
theorem Shape.signal (ring) : Shape.Statement (.signal ring) := fun h => by cases h
theorem Shape.timesnap (ring) : Shape.Statement (.timesnap ring) := fun h => by cases h
theorem Shape.sampleRequest (d) : Shape.Statement (.sampleRequest d) := fun h => by cases h
theorem Shape.create (ring) : Shape.Statement (.create ring) := fun h => by cases h
theorem Shape.assign (ring) : Shape.Statement (.assign ring) := fun h => by cases h
theorem Shape.start (ring) : Shape.Statement (.start ring) := fun h => by cases h
theorem Shape.stop (ring) : Shape.Statement (.stop ring) := fun h => by cases h
theorem Shape.destroy (ring) : Shape.Statement (.destroy ring) := fun h => by cases h
theorem Shape.keyx (ring) : Shape.Statement (.keyx ring) := fun h => by cases h
theorem Shape.quote (ring) : Shape.Statement (.quote ring) := fun h => by cases h
theorem Shape.exportData (ring) : Shape.Statement (.exportData ring) := fun h => by cases h
theorem Shape.commandComplete (ring k) : Shape.Statement (.commandComplete ring k) := fun h => by cases h
theorem Shape.commandTimeout (ring k) : Shape.Statement (.commandTimeout ring k) := fun h => by cases h
theorem Shape.cqIrqCoalesceTimer (ring) : Shape.Statement (.cqIrqCoalesceTimer ring) := fun h => by cases h
theorem Shape.ratchet : Shape.Statement (.ratchet) := fun h => by cases h
theorem Shape.ownprog : Shape.Statement (.ownprog) := fun h => by cases h
theorem Shape.ownrev : Shape.Statement (.ownrev) := fun h => by cases h
theorem Shape.retire : Shape.Statement (.retire) := fun h => by cases h
theorem Shape.colbyp : Shape.Statement (.colbyp) := fun h => by cases h
theorem Shape.hbmrep : Shape.Statement (.hbmrep) := fun h => by cases h
theorem Shape.pelock : Shape.Statement (.pelock) := fun h => by cases h
theorem Shape.fuseProgramDone (verified) : Shape.Statement (.fuseProgramDone verified) := fun h => by cases h
theorem Shape.inputInRange : Shape.Statement (.inputInRange) := fun h => by cases h
theorem Shape.inputLost : Shape.Statement (.inputLost) := fun h => by cases h
theorem Shape.perstNAssert : Shape.Statement (.perstNAssert) := fun h => by cases h
theorem Shape.perstNRelease (inputStable romOk drbgOk) : Shape.Statement (.perstNRelease inputStable romOk drbgOk) := fun h => by cases h
theorem Shape.hotReset : Shape.Statement (.hotReset) := fun h => by cases h
theorem Shape.functionLevelReset : Shape.Statement (.functionLevelReset) := fun h => by cases h
theorem Shape.bootBufferWrite (off data whole) : Shape.Statement (.bootBufferWrite off data whole) := fun h => by cases h
theorem Shape.bootChunk (data) : Shape.Statement (.bootChunk data) := fun h => by cases h
theorem Shape.chunkAccept : Shape.Statement (.chunkAccept) := fun h => by cases h
theorem Shape.bootRetry (data) : Shape.Statement (.bootRetry data) := fun h => by cases h
theorem Shape.bootStage5 : Shape.Statement (.bootStage5) := fun h => by cases h
theorem Shape.bootPolicyHandoff : Shape.Statement (.bootPolicyHandoff) := fun h => by cases h
theorem Shape.bootBenchLoad (failing) : Shape.Statement (.bootBenchLoad failing) := fun h => by cases h
theorem Shape.firmwareStartTimeout : Shape.Statement (.firmwareStartTimeout) := fun h => by cases h
theorem Shape.ready : Shape.Statement (.ready) := fun h => by cases h
theorem Shape.domOn : Shape.Statement (.domOn) := fun h => by cases h
theorem Shape.domOff : Shape.Statement (.domOff) := fun h => by cases h
theorem Shape.domainSwitchDone : Shape.Statement (.domainSwitchDone) := fun h => by cases h
theorem Shape.benchReset : Shape.Statement (.benchReset) := fun h => by cases h
theorem Shape.setFreq : Shape.Statement (.setFreq) := fun h => by cases h
theorem Shape.wdArm : Shape.Statement (.wdArm) := fun h => by cases h
theorem Shape.wdKick : Shape.Statement (.wdKick) := fun h => by cases h
theorem Shape.faultClr : Shape.Statement (.faultClr) := fun h => by cases h
theorem Shape.watchdogExpiry : Shape.Statement (.watchdogExpiry) := fun h => by cases h
theorem Shape.inputSample (volt10mV amp100mA) : Shape.Statement (.inputSample volt10mV amp100mA) := fun h => by cases h
theorem Shape.currentCeilingStep (up) : Shape.Statement (.currentCeilingStep up) := fun h => by cases h
theorem Shape.tempSample (t) : Shape.Statement (.tempSample t) := fun h => by cases h
theorem Shape.thermalCeilingStep (s) : Shape.Statement (.thermalCeilingStep s) := fun h => by cases h
theorem Shape.pllRampStep (b) : Shape.Statement (.pllRampStep b) := fun h => by cases h
theorem Shape.pllLockLost (b) : Shape.Statement (.pllLockLost b) := fun h => by cases h
theorem Shape.pwrBrakeNAssert : Shape.Statement (.pwrBrakeNAssert) := fun h => by cases h
theorem Shape.pwrBrakeNRelease : Shape.Statement (.pwrBrakeNRelease) := fun h => by cases h
theorem Shape.brakeCap : Shape.Statement (.brakeCap) := fun h => by cases h
theorem Shape.brakeCapLift : Shape.Statement (.brakeCapLift) := fun h => by cases h
theorem Shape.ident : Shape.Statement (.ident) := fun h => by cases h
theorem Shape.status : Shape.Statement (.status) := fun h => by cases h
theorem Shape.select (bytes pecOk) : Shape.Statement (.select bytes pecOk) := fun h => by cases h
theorem Shape.smbRead : Shape.Statement (.smbRead) := fun h => by cases h
theorem Shape.read8 : Shape.Statement (.read8) := fun h => by cases h
theorem Shape.extest : Shape.Statement (.extest) := fun h => by cases h
/-- SAMPLE_PRELOAD. -/
theorem Shape.samplePreload (pins preload) : Shape.Statement (.samplePreload pins preload) := by
  intro h
  exact .inr ⟨pins, preload, rfl, by simpa [Instr.wellFormed, scanFits] using h⟩

theorem Shape.idcode : Shape.Statement (.idcode) := fun h => by cases h
theorem Shape.clamp : Shape.Statement (.clamp) := fun h => by cases h
theorem Shape.highz : Shape.Statement (.highz) := fun h => by cases h
theorem Shape.bypass (code) : Shape.Statement (.bypass code) := fun h => by cases h
theorem Shape.trstNAssert : Shape.Statement (.trstNAssert) := fun h => by cases h
theorem Shape.pcieLinkUp (x16 speed) : Shape.Statement (.pcieLinkUp x16 speed) := fun h => by cases h
theorem Shape.boot100MsMark : Shape.Statement (.boot100MsMark) := fun h => by cases h
theorem Shape.timesnapSampleReturn (d) : Shape.Statement (.timesnapSampleReturn d) := fun h => by cases h
theorem Shape.unsupportedRequest (isRead) : Shape.Statement (.unsupportedRequest isRead) := fun h => by cases h
theorem Shape.smbusTimeout : Shape.Statement (.smbusTimeout) := fun h => by cases h
theorem Shape.safIrqClearOnRead (r) : Shape.Statement (.safIrqClearOnRead r) := fun h => by cases h

end Sys2Proof.Laws
end

