-- ==== Sys2Proof/Laws/Sett.lean ====
section
/-!
SUPPORT. The shared shape of the scalar instructions: the fields of a word as bit ranges, reads of general registers and predicates
after writes, and what `issue`, `sequential` and a written register leave.
-/

namespace Sys2Proof.Machine

/-! ### Fields (R71) -/

theorem sfOp_eq (w : Word) : sfOp w = (opOf w).toNat := by simp [sfOp, wfld, fld, opOf]
theorem sfD_eq (w : Word) : sfD w = dOf w := by simp [sfD, wfld, fld, dOf]
theorem sfA_eq (w : Word) : sfA w = aOf w := by simp [sfA, wfld, fld, aOf]
theorem sfB_eq (w : Word) : sfB w = bOf w := by simp [sfB, wfld, fld, bOf]
theorem sfPr_eq (w : Word) : sfPr w = prOf w := by simp [sfPr, wfld, fld, prOf]
theorem sfFn_eq (w : Word) : sfFn w = (fnOf w).toNat := by simp [sfFn, wfld, fld, fnOf]

/-- The field of a word is the number of its bit range. -/
theorem wfld_eq (w : Word) (lo len : Nat) : wfld w lo len = (w.extractLsb' lo len).toNat := by simp [wfld, fld]

/-- IMM15 is read signed. -/
theorem immDword_eq (w : Word) : immDword w = imm15Of w := by
  unfold immDword imm15Of sfImm15 wfld fld sext
  rw [BitVec.signExtend]
  congr 1
  simp [BitVec.toInt_eq_toNat_cond, BitVec.extractLsb'_toNat]
  split <;> split <;> omega

/-! ### Registers (R67) -/

/-- A general register after a write of one. -/
theorem Core.g_setG (k : Core) (n m : Nat) (v : DWord) : (k.setG n v).g m = if m = n ∧ n ≠ 0 then v else k.g m := by
  unfold Core.setG Core.g
  by_cases hn : n = 0
  · subst hn; simp
  · by_cases hm : m = 0
    · subst hm; simp [hn]; intro h; omega
    · simp [hn, hm, smGet_smSet]

/-- A predicate after a write of one. -/
theorem Core.p_setP (k : Core) (n m : Nat) (v : BitVec 256) : (k.setP n v).p m = if m = n ∧ n ≠ 0 then v else k.p m := by
  unfold Core.setP Core.p
  by_cases hn : n = 0
  · subst hn; simp
  · by_cases hm : m = 0
    · subst hm; simp [hn]; intro h; omega
    · simp [hn, hm, smGet_smSet]

/-- A register written and the program counter moved. -/
theorem State.writeG_writesG (s : State) (c : CoreId) (d : Nat) (v : DWord) (pc : Nat) :
    s.WritesG ((s.writeG c d v).setPc c pc) c d v pc := by
  refine ⟨⟨rfl, ?_⟩, ?_, ?_, ?_⟩
  · intro j hj
    simp [State.writeG, State.setPc, State.core_updCore, hj]
  · intro n
    simp only [State.readG, State.writeG, State.setPc, State.core_updCore, if_true]
    exact Core.g_setG _ _ _ _
  · simp only [State.writeG, State.setPc, State.core_updCore, if_true, Core.setG]
    split <;> rfl
  · simp [State.writeG, State.setPc, State.core_updCore]

/-- The program counter moved. -/
theorem State.setPc_movesTo (s : State) (c : CoreId) (pc : Nat) : s.MovesTo (s.setPc c pc) c pc := by
  refine ⟨⟨rfl, ?_⟩, ?_⟩
  · intro j hj
    simp [State.setPc, State.core_updCore, hj]
  · simp [State.setPc, State.core_updCore]

/-! ### Issue -/

/-- A core that stands on a word of the row runs it. -/
theorem State.StandsOn.issue {s : State} {c : CoreId} {w : Word} (h : s.StandsOn c w) (mine : Word → Bool) (run : Word → State)
    (hm : mine w = true) : s.issue c mine run = run w := by
  unfold State.issue
  rw [h.1, h.2.1, hm]
  rfl

/-- A word of the row without a fault has its effect, and the core goes on. -/
theorem State.StandsOn.sequential {s : State} {c : CoreId} {w : Word} (h : s.StandsOn c w) (fs : List (Bool × Nat × Nat)) (eff : State)
    (hf : ∀ f ∈ fs, f.1 = false) : s.sequential c fs eff = eff.setPc c ((s.core (coreKey c)).pc + 4) := by
  unfold State.sequential
  have hpc := h.2.2.2
  rw [if_neg (by omega)]
  have : fs.find? (·.1) = none := by
    rw [List.find?_eq_none]
    intro x hx
    simp [hf x hx]
  rw [this]

theorem State.StandsOn.short {s : State} {c : CoreId} {w : Word} (h : s.StandsOn c w) : isLong w = false := h.2.2.1

end Sys2Proof.Machine
end

