-- ==== Sys2Proof/Tests/Slice0.lean ====
section
/-!
SUPPORT. The model's own tests: the smoke test of `wellFormed`, and for each obligation a state and operands that meet its
hypotheses, with the boundary of each of its clauses.
-/

namespace Sys2Proof.Tests

-- One theorem after another: each is small, and side by side their threads fill the memory.
set_option Elab.async false

open Sys2Proof Sys2Proof.Machine

/-! ### Builders -/

/-- A state with registers set: die, page, offset, value. -/
def withRegs (s : State) (rs : List (Nat × Nat × Nat × Nat)) : State :=
  rs.foldl (fun s r => s.setReg r.1 r.2.1 r.2.2.1 (w32 r.2.2.2)) s

/-- A short form from its fields (R71). -/
def asm (op d a b pr fn : Nat) : Nat := op * 2 + d * 2 ^ 7 + a * 2 ^ 12 + b * 2 ^ 17 + pr * 2 ^ 22 + fn * 2 ^ 25

/-- Face 0 of Bench 0 as a core. -/
def c0 : CoreId := .face 0 0

/-- A strand of the Molt of Bench 0. -/
def m0 : CoreId := .strand 0 0

/-- Face 0 of Bench 0 running at `pc` on the word `w`, with general registers `g`. -/
def coreAt (pc w : Nat) (g : SMap DWord) : State :=
  let s := (State.reset.updFace 0 0 (fun f => { f with parked := false })).updCore (coreKey c0) (fun k => { k with pc := pc, gpr := g })
  s.putBytes (loc 5 0 0 pc) (leBytes 4 w)

/-- The Molt of Bench 0 running at 0 on the word `w`. -/
def moltAt (w : Nat) : State :=
  (State.reset.updFace 0 6 (fun f => { f with parked := false })).putBytes (loc 5 0 6 0) (leBytes 4 w)

/-- A core whose VE is enabled. -/
def vecAt (w : Nat) (g : SMap DWord) : State := withRegs (coreAt 0 w g) [(0, 0x48, Off.ctl, 1)]

/-! ### Control core -/

/-- R337, R444: a SHUPD of no or of seventeen values, and a scan of too few pins, name no event. -/
theorem test_ill_formed_refused : Instr.wellFormed (.shupd ⟨0, 0⟩ 0x40 []) = false ∧ Instr.wellFormed (.shupd ⟨0, 0⟩ 0x40 (List.replicate 17 0)) = false
    ∧ Instr.wellFormed (.samplePreload [] true) = false ∧ Instr.wellFormed (.shupd ⟨0, 0⟩ 0x40 [0]) = true := by decide +kernel

theorem witness_StepRunsFrontCommand : ({ State.reset with pending := [.nop 0] } : State).pending = [.nop 0] := rfl

theorem witness_AluWritesFunctionOfOperands : ∀ fn ∈ [0x00, 0x0F],
    (coreAt 0 (asm 1 3 1 2 0 fn) []).StandsOn c0 (w32 (asm 1 3 1 2 0 fn)) ∧ opOf (w32 (asm 1 3 1 2 0 fn)) = 0x01
      ∧ prOf (w32 (asm 1 3 1 2 0 fn)) = 0 ∧ fnOf (w32 (asm 1 3 1 2 0 fn)) < 0x10#7 := by
  unfold State.StandsOn; decide +kernel

theorem witness_ImmediateFormsWriteGD : (∀ op ∈ [2, 3, 4, 5], (coreAt 0 (asm op 3 1 2 0 0) []).StandsOn c0 (w32 (asm op 3 1 2 0 0)))
    ∧ ∀ b ∈ [0, 0x1F], let w := w32 (asm 6 3 1 b 5 0)
      (coreAt 0 (asm 6 3 1 b 5 0) []).StandsOn c0 w ∧ opOf w = 0x06 ∧ w.extractLsb' 25 7 = 0#7 ∧ w.extractLsb' 23 2 ≠ 3#2 := by
  unfold State.StandsOn; decide +kernel

theorem witness_MovwPlacesHalfword : ∀ a ∈ [0, 7], let w := w32 (asm 7 3 a 2 0 0)
    (coreAt 0 (asm 7 3 a 2 0 0) []).StandsOn c0 w ∧ opOf w = 0x07 ∧ w.extractLsb' 14 2 < 2#2 := by
  unfold State.StandsOn; decide +kernel

/-- A load or store word: D, A, the 12-bit offset and the 3-bit size code. -/
def mem12 (op d a imm sz : Nat) : Nat := op * 2 + d * 2 ^ 7 + a * 2 ^ 12 + imm * 2 ^ 17 + sz * 2 ^ 29

/-- Aligned accesses of each size, the last bytes of the store among them. -/
theorem witness_LoadReadsOwnStore : ∀ x ∈ [(0x7FFFFF, 0), (0x7FFFFE, 1), (0x7FFFF8, 3), (0, 6)],
    let w := w32 (mem12 8 3 1 0 x.2)
    let s := coreAt 0 (mem12 8 3 1 0 x.2) [(1, BitVec.ofNat 64 x.1)]
    let n := 2 ^ ((w.extractLsb' 29 3).toNat % 4)
    let a := (s.readG c0 (aOf w) + (w.extractLsb' 17 12).signExtend 64).toNat
    s.StandsOn c0 w ∧ opOf w = 0x08 ∧ w.extractLsb' 29 3 ≠ 7#3 ∧ a % n = 0 ∧ a + n ≤ storeSize (coreUnit c0) := by
  unfold State.StandsOn; decide +kernel

theorem witness_StoreWritesOwnStoreOnly : ∀ x ∈ [(0x7FFFFF, 0), (0x7FFFF8, 3), (0, 2)],
    let w := w32 (mem12 9 3 1 0 x.2)
    let s := coreAt 0 (mem12 9 3 1 0 x.2) [(1, BitVec.ofNat 64 x.1)]
    let n := 2 ^ (w.extractLsb' 29 3).toNat
    let a := (s.readG c0 (aOf w) + (w.extractLsb' 17 12).signExtend 64).toNat
    s.StandsOn c0 w ∧ opOf w = 0x09 ∧ w.extractLsb' 29 3 < 4#3 ∧ a % n = 0 ∧ a + n ≤ storeSize (coreUnit c0)
      ∧ s.taskState (coreBench c0) = 0 := by
  unfold State.StandsOn; decide +kernel

/-- A misaligned and an outlying access, jumps out of the bank and to an odd place, a TRAP, and reserved words. -/
theorem witness_PreciseExceptions :
    (∀ op ∈ [8, 9], ∀ x ∈ [(1, true), (0x7FFFFC, false)], let w := w32 (mem12 op 3 1 0 3)
      let s := coreAt 0 (mem12 op 3 1 0 3) [(1, BitVec.ofNat 64 (if x.2 then x.1 else x.1 + 4))]
      let a := (s.readG c0 (aOf w) + (w.extractLsb' 17 12).signExtend 64).toNat
      s.StandsOn c0 w ∧ if x.2 then a % 8 ≠ 0 else a % 8 = 0 ∧ storeSize (coreUnit c0) < a + 8)
    ∧ (let w := w32 (asm 0x0B 3 0x1F 0x1F 7 0x7F); let s := coreAt 0 w.toNat []
      s.Runs c0 w ∧ opOf w = 0x0B ∧ ((s.core (coreKey c0)).pc : Int) + 4 * (w.extractLsb' 12 20).toInt < 0)
    ∧ (let w := w32 (asm 0x0B 3 4 0 0 0); let s := coreAt 0x1FFFC w.toNat []
      s.Runs c0 w ∧ opOf w = 0x0B ∧ 0x1FFFF < ((s.core (coreKey c0)).pc : Int) + 4 * (w.extractLsb' 12 20).toInt)
    ∧ (∀ x ∈ [2, 0x20000], let w := w32 (asm 0x0C 3 1 0 0 0); let s := coreAt 0 w.toNat [(1, BitVec.ofNat 64 x)]
      let dest := (s.readG c0 (aOf w) + imm15Of w).toNat
      s.Runs c0 w ∧ opOf w = 0x0C ∧ (dest % 4 ≠ 0 ∨ dest % 4 = 0 ∧ 0x1FFFF < dest))
    ∧ (let w := w32 (asm 0 2 0x1F 0x1F 0 0); (coreAt 0 w.toNat []).Runs c0 w ∧ opOf w = 0x00 ∧ dOf w = 2)
    ∧ ∀ x ∈ [asm 0x0F 0 0 0 0 0, asm 0x19 0 0 0 0 0, asm 0x1B 0 0 0 0 0, asm 1 0 0 0 1 0, asm 1 0 0 0 0 0x10, asm 0 5 0 0 0 0, asm 0x0E 4 0 0 0 0],
      (coreAt 0 x []).StandsOn c0 (w32 x) := by
  unfold State.StandsOn State.Runs; decide +kernel

/-- A branch to the first and to the last word of the bank, one not taken, and jumps to those ends. -/
theorem witness_BranchesAndJumps :
    (let w := w32 (asm 0x0A 0 0 0 0 0); (coreAt 0 w.toNat []).Runs c0 w ∧ opOf w = 0x0A
      ∧ 0 ≤ (((coreAt 0 w.toNat []).core (coreKey c0)).pc : Int) + 4 * (w.extractLsb' 20 12).toInt)
    ∧ (let w := w32 (asm 0x0A 0 0 (1 + 8) 0 0); (coreAt 0x1FFF8 w.toNat []).Runs c0 w ∧ w.extractLsb' 17 3 = 1#3 ∧ 0x1FFF8 + 4 < 0x20000)
    ∧ (let w := w32 (asm 0x0B 3 1 0 0 0); (coreAt 0x1FFF8 w.toNat []).Runs c0 w ∧ opOf w = 0x0B
      ∧ (((coreAt 0x1FFF8 w.toNat []).core (coreKey c0)).pc : Int) + 4 * (w.extractLsb' 12 20).toInt = 0x1FFFC)
    ∧ (let w := w32 (asm 0x0C 3 1 0 0 0); let s := coreAt 0 w.toNat [(1, 0x1FFFC)]
      s.Runs c0 w ∧ opOf w = 0x0C ∧ (s.readG c0 (aOf w) + imm15Of w).toNat = 0x1FFFC) := by
  unfold State.Runs; decide +kernel

/-- A CSR word: D, A, number and action. -/
def csrWord (d a n act : Nat) : Nat := mem12 0x0D d a n act

theorem witness_SystemRegistersReadAndWritten :
    ∀ x ∈ [(0x000, 0), (0x02, 0), (0x030, 1), (0x037, 2), (0x037, 3)], let w := w32 (csrWord 3 1 x.1 x.2)
      let s := coreAt 0 w.toNat []
      s.StandsOn c0 w ∧ opOf w = 0x0D ∧ (s.csrValue c0 (w.extractLsb' 17 12).toNat).isSome = true ∧ w.extractLsb' 29 3 < 4#3
        ∧ s.tokenMode (coreBench c0) (coreUnit c0) = false := by
  unfold State.StandsOn; decide +kernel

theorem witness_SyncChangesFlagsAndCounters : ∀ d ∈ [0, 1, 2, 3], let w := w32 (asm 0x0E d 1 0x1F 7 0x7F)
    let s := coreAt 0 w.toNat []
    s.StandsOn c0 w ∧ opOf w = 0x0E ∧ s.tokenMode (coreBench c0) (coreUnit c0) = false
      ∧ (s.counter 0 0 15 : Int) + (w.extractLsb' 21 11).toInt < 0 := by
  unfold State.StandsOn; decide +kernel

theorem witness_SystemFormsAndBankSwap : (∀ d ∈ [0, 3, 4], let w := w32 (asm 0 d 0 0 0 0); (coreAt 0 w.toNat []).StandsOn c0 w ∧ opOf w = 0x00)
    ∧ ∀ r ∈ [true, false], let s := (coreAt 0 0 []).updFace 0 0 (fun f => { f with swap := some ⟨0, 0, r⟩ })
      (s.face 0 0).swap = some ⟨0, 0, r⟩ ∧ (s.bench 0).jobs = [] ∧ (s.face 0 0).bank = false := by
  unfold State.StandsOn; decide +kernel

/-- A Face's PARK, and that of the last running strand. -/
theorem witness_ParkStopsAtNextInstruction : (let w := w32 (asm 0 1 0x1F 0 0 0)
    ((coreAt 0 w.toNat []).StandsOn c0 w ∧ opOf w = 0x00 ∧ dOf w = 1)
    ∧ (moltAt w.toNat).StandsOn m0 w ∧ ∀ k ∈ (moltAt w.toNat).coreKeys 0 6, k ≠ coreKey m0 → ((moltAt w.toNat).core k).stopped = true) := by
  unfold State.StandsOn; decide +kernel

/-- Each function; with the VE enabled, with it disabled, and under quiesce. -/
theorem witness_PredicateFunctions : ∀ fn ∈ [0, 4, 5, 6, 7], ∀ ctl ∈ [0, 1, 5], let w := w32 (asm 0x1A 7 7 7 0 fn)
    let s := withRegs (coreAt 0 w.toNat []) [(0, 0x48, Off.ctl, ctl)]
    s.StandsOn c0 w ∧ opOf w = 0x1A ∧ prOf w = 0 ∧ bOf w < 8 ∧ aOf w < 8 ∧ dOf w < 8 ∧ s.en 0 0x48 = (ctl != 0)
      ∧ s.qsc 0 0x48 = (ctl == 5) := by
  unfold State.StandsOn; decide +kernel

/-! ### Vectors -/

theorem witness_VectorIntegerLanes : ∀ fn ∈ [0, 12], let w := w32 (asm 0x13 1 2 3 0 fn)
    (vecAt w.toNat []).VectorReady c0 w [dOf w, aOf w, bOf w] ∧ opOf w = 0x13 ∧ fnOf w < 0x0D#7 := by
  unfold State.VectorReady State.StandsOn; decide +kernel

theorem witness_VectorFloatLanes : ∀ x ∈ [(0x10, 0), (0x10, 11), (0x11, 7), (0x12, 7 + 2 * 16)], let w := w32 (asm x.1 1 2 3 0 x.2)
    (vecAt w.toNat []).VectorReady c0 w [dOf w, aOf w, bOf w] ∧ opOf w = BitVec.ofNat 6 x.1
      ∧ (x.1 = 0x10 → fnOf w < 0x0C#7) ∧ (x.1 ≠ 0x10 → (w.extractLsb' 25 4).toNat < 8 ∧ (w.extractLsb' 29 2).toNat % 2 = 0) := by
  unfold State.VectorReady State.StandsOn; decide +kernel

theorem witness_VectorConversionsAndTables :
    (∀ x ∈ [(0x15, 0, 0), (0x15, 1, 0), (0x15, 0, 0x0E), (0x10, 7, 0x20), (0x10, 7, 0x21)], let w := w32 (asm x.1 1 2 x.2.1 0 x.2.2)
      (vecAt w.toNat []).VectorReady c0 w [dOf w, aOf w] ∧ coreUnit c0 ≠ 6 ∧ bOf w < 8)
    ∧ let w := w32 (asm 0x10 1 2 0 0 0x20); (moltAt w.toNat).VectorReady m0 w [dOf w, aOf w] ∧ coreUnit m0 = 6 := by
  unfold State.VectorReady State.StandsOn; decide +kernel

theorem witness_VectorPermutationsAndSummaries :
    (∀ fn ∈ [0, 1, 2, 5], let w := w32 (asm 0x18 1 2 0 0 fn); (vecAt w.toNat []).VectorReady c0 w [dOf w] ∧ opOf w = 0x18 ∧ bOf w = 0)
    ∧ (let w := w32 (asm 0x18 24 24 0 0 0); (moltAt w.toNat).VectorReady m0 w [dOf w] ∧ aOf w < 25)
    ∧ ∀ x ∈ [(3, 31), (4, 0), (4, 3), (4, 6)], let w := w32 (asm 0x18 1 2 x.2 0 x.1); (vecAt w.toNat []).VectorReady c0 w [aOf w] ∧ opOf w = 0x18 := by
  unfold State.VectorReady State.StandsOn; decide +kernel

theorem witness_VectorComparisons : ∀ x ∈ [(3, 7, 5), (0, 1, 6), (1, 6, 0), (2, 2, 6)], let w := w32 (asm 0x14 x.2.1 2 3 0 (x.2.2 + 8 * x.1))
    (vecAt w.toNat []).VectorReady c0 w [aOf w, bOf w] ∧ opOf w = 0x14 ∧ fnOf w < 0x20#7 ∧ (w.extractLsb' 25 3).toNat < 7
      ∧ (w.extractLsb' 28 2).toNat = x.1 ∧ 0 < dOf w ∧ dOf w < 8 := by
  unfold State.VectorReady State.StandsOn; decide +kernel

/-- Loads and a store of the last bytes of the store. -/
theorem witness_VectorLoadsAndStores : ∀ x ∈ [(0x16, 0x00, 0x7FFC00), (0x16, 0x0E, 0), (0x16, 0x01, 0x7FFE00), (0x17, 0x00, 0x7FFC00)],
    let w := w32 (asm x.1 1 2 0 0 x.2.1)
    let s := vecAt w.toNat [(2, BitVec.ofNat 64 x.2.2)]
    let y := (s.readG c0 (aOf w) + s.readG c0 (bOf w)).toNat
    s.VectorReady c0 w [dOf w] ∧ y % 4 = 0 ∧ (if x.2.1 = 0x01 then y + 512 else y + 1024) ≤ storeSize (coreUnit c0) := by
  unfold State.VectorReady State.StandsOn; decide +kernel

/-- A tile waiting, its first and its last chunk, and no tile. -/
theorem witness_TilePopFeedsInstruction : ∀ x ∈ [([], 0), ([(⟨[], 16, 0, false⟩ : Tile)], 0), ([⟨[], 16, 0, false⟩], 7)],
    let w := w32 (asm 0x13 1 31 0 0 0)
    let s := (withRegs (vecAt w.toNat []) [(0, 0x48, Off.vecCfg, 1)]).updFace 0 0 (fun f => { f with tileQ := x.1, popped := x.2 })
    s.StandsOn c0 w ∧ opOf w = 0x13 ∧ fnOf w = 0x00 ∧ aOf w = 31 ∧ bOf w = 0 ∧ dOf w = 1 ∧ prOf w = 0 ∧ s.taskState 0 = 0
      ∧ s.en 0 0x48 = true ∧ s.qsc 0 0x48 = false ∧ (s.reg 0 0x48 Off.vecCfg).extractLsb' 0 4 = 1#4
      ∧ (s.reg 0 0x48 Off.vecSring).extractLsb' 24 8 = 0#8 := by
  unfold State.StandsOn; decide +kernel

/-! ### Long forms and units -/

/-- The four words of a long form: LOP, the registers GA, GB and GC, the formats, IMM19 and IXR (R76). -/
def lform (lop ga gb gc fa fb imm ixr : Nat) : List Word :=
  [w32 (1 + lop * 2), 0, w32 (ixr * 2 ^ 13 + ga * 2 ^ 22 + gb * 2 ^ 27), w32 (gc + fa * 2 ^ 5 + fb * 2 ^ 9 + imm * 2 ^ 13)]

/-- Face 0 of Bench 0 with its units enabled, running on a long form, with the operands of `witness_LongFormsEnterQueue`. -/
def longAt (ws : List Word) : State :=
  let s := (withRegs State.reset [(0, 0x20, Off.ctl, 1), (0, 0x20, Off.slbGeom, 64), (0, 0x40, Off.ctl, 1), (0, 0x50, Off.ctl, 1), (0, 0x60, Off.ctl, 1), (0, 0x98, Off.ctl, 1)]).updFace 0 0
    (fun f => { f with parked := false, loadTrack := [(0, 2)] })
  (s.updCore 0 (fun k => { k with gpr := [(1, 256), (2, 0x1000001000), (3, 0x100002000), (4, 1), (5, 16)] })).putBytes (loc 5 0 0 0)
    (ws.flatMap (fun w => leBytes 4 w.toNat))

/-- A queue entry of a long form. -/
def entry (ws : List Word) : QEntry := ⟨ws, false, 0, 0, 0, 0, 0, 0, 0⟩

/-- Each long form but LSYNC on an empty queue, and on a full one. -/
theorem witness_LongFormsEnterQueue :
    (∀ x ∈ [(0x01, lform 0x01 0 5 0 1 1 1 0), (0x02, lform 0x02 0 5 0 1 1 1 0), (0x03, lform 0x03 0 1 0 1 0 0x101 0), (0x04, lform 0x04 0 0 0 0 0 0x201 0),
        (0x05, lform 0x05 0 2 3 1 1 1 0), (0x08, lform 0x08 0 0 0 0 0 0 0), (0x0C, lform 0x0C 0 4 0 1 0 0 1), (0x0C, lform 0x0C 0 4 0 1 0 1 0),
        (0x0C, lform 0x0C 0 4 0 1 0 2 1), (0x0D, lform 0x0D 0 4 0 1 1 0 1), (0x0E, lform 0x0E 0 4 0 1 0 0 1), (0x0F, lform 0x0F 0 4 0 1 0 0 0),
        (0x10, lform 0x10 0 0 0 1 0 0 0), (0x14, lform 0x14 0 0 0 0 0 0 0), (0x15, lform 0x15 0 0 0 0 0 2 0)],
      (longAt x.2).StandsOnLong c0 x.1 ∧ ((longAt x.2).face 0 0).qSlab.length < 16)
    ∧ 16 ≤ (((longAt []).updFace 0 0 (fun f => { f with qSlab := List.replicate 16 (entry []) })).face 0 0).qSlab.length := by
  unfold State.StandsOnLong; decide +kernel

/-- An LSYNC that waits for the flags `m`, held in flag mode. -/
def heldAt (m : Word) : State := (longAt [w32 (1 + 0x18 * 2), m, 0, 0]).updCore 0 (fun k => { k with holding := true })

/-- An LSYNC that takes a token of queue 0 and pushes one to queue 1, held in token mode. -/
def heldTok : State :=
  let s := (withRegs (longAt [w32 (1 + 0x18 * 2 + 2 ^ 7 + 2 * 2 ^ 28), 0, 1, 0]) [(0, 0x10, Off.ctl, 0x10000)]).updCore 0 (fun k => { k with holding := true })
  s.updFace 0 0 (fun f => { f with tok := [(0, 1), (1, 1023)] })

/-- LSYNC issued; held in flag mode, satisfied and not; and in token mode, with one token and room for one. -/
theorem witness_LsyncHoldsAndReleases :
    (longAt (lform 0x18 0 0 0 0 0 0 0)).StandsOnLong c0 0x18
    ∧ ((heldAt 1).core 0).holding = true ∧ ((heldAt 1).core 0).popped = false ∧ ((heldAt 0).face 0 0).parked = false
    ∧ (heldAt 0).tokenMode 0 0 = false ∧ (heldAt 0).waitOk 0 0 ((heldAt 0).fetchLong c0) = true
    ∧ (heldAt 1).waitOk 0 0 ((heldAt 1).fetchLong c0) = false := by
  unfold State.StandsOnLong; decide +kernel

theorem witness_LsyncInTokenMode :
    (heldTok.core 0).holding = true ∧ heldTok.tokenMode 0 0 = true ∧ lfWc (heldTok.fetchLong c0) = true ∧ lfSk (heldTok.fetchLong c0) = 2
      ∧ lfSix (heldTok.fetchLong c0) % 16 ≠ lfWcn (heldTok.fetchLong c0) ∧ 1 ≤ heldTok.tokens 0 0 (lfWcn (heldTok.fetchLong c0))
      ∧ heldTok.tokens 0 0 (lfSix (heldTok.fetchLong c0) % 16) < 1024 ∧ (heldTok.face 0 0).queuesEmpty = true := by
  decide +kernel

/-- A Chute operation that waits for a token of queue 0. -/
def tokEntry (lop : Nat) : QEntry := entry [w32 (1 + lop * 2 + 2 ^ 7), 0, 0, 0]

/-- The last token, which the head of the Chute queue is ready to take. -/
theorem witness_LastTokenIsKept : let s := (withRegs heldTok [(0, 0x40, Off.ctl, 1)]).updFace 0 0 (fun f => { f with qChute := [tokEntry 5] })
    (s.core 0).holding = true ∧ s.tokenMode 0 0 = true ∧ (s.core 0).popped = false ∧ lfWc (s.fetchLong c0) = true
      ∧ s.tokens 0 0 (lfWcn (s.fetchLong c0)) = 1 ∧ (s.face 0 0).queue .chute = [tokEntry 5] ∧ s.headReady 0 0 .chute = true
      ∧ lfWc (tokEntry 5).words = true ∧ lfWcn (tokEntry 5).words = lfWcn (s.fetchLong c0) := by
  decide +kernel

/-- Heads of the Slab queue and of the Chute queue. -/
theorem witness_QueueHeadStarts :
    (∀ lop ∈ [1, 2, 3], let e := entry (lform lop 0 0 0 1 1 0x0F 0)
      let s := (withRegs State.reset [(0, 0x20, Off.ctl, 1), (0, 0x21, Off.ctl, 1), (0, 0x22, Off.ctl, 1), (0, 0x23, Off.ctl, 1)]).updFace 0 0
        (fun f => { f with qSlab := [e] })
      s.waitOk 0 0 e.words = true ∧ s.tokenMode 0 0 = false ∧ s.slabReady 0 0 e = true ∧ ∀ k ∈ slabMask e, s.slabOff 0 0 k = false)
    ∧ let e := entry (lform 5 0 0 0 1 1 1 0)
      let s := (withRegs State.reset [(0, 0x40, Off.ctl, 1)]).updFace 0 0 (fun f => { f with qChute := [e] })
      s.waitOk 0 0 e.words = true ∧ (s.face 0 0).qChute = [e] ∧ (s.face 0 0).chute = [] ∧ s.en 0 (chuPage 0) = true ∧ s.qsc 0 (chuPage 0) = false := by
  decide +kernel

/-- One token of queue 0, for which the heads of the Slab queue and of the Chute queue both wait. -/
theorem witness_QueueHeadLeavesLastToken : 
    let s := (withRegs State.reset [(0, 0x10, Off.ctl, 0x10000), (0, 0x40, Off.ctl, 1)]).updFace 0 0
      (fun f => { f with qSlab := [tokEntry 1], qChute := [tokEntry 5], tok := [(0, 1)] })
    s.tokenMode 0 0 = true ∧ (s.face 0 0).qChute = [tokEntry 5] ∧ (s.face 0 0).qSlab = [tokEntry 1] ∧ s.slabReady 0 0 (tokEntry 1) = true
      ∧ lfWc (tokEntry 1).words = true ∧ s.tokens 0 0 (lfWcn (tokEntry 5).words) = 1 := by
  decide +kernel

/-- A running operation of the words `ws` with nothing to store. -/
def running (ws : List Word) (ended : Bool) : RunOp := ⟨entry ws, [], none, [0], 0, 0, [], false, ended, [], none⟩

/-- A load, a stream, a drain without and with tiles to place; a load and a stream, of the first and the last slot tile, that have not
read. -/
theorem witness_SlabOperationsComplete :
    let op := running (lform 3 0 0 0 1 0 1 0) false
    let dr := running (lform 4 0 0 0 0 0 0x201 0) false
    let dt := { running (lform 4 0 0 0 0 0 0x41 0) false with tiles := [⟨[], 16, 0, true⟩] }
    let s := State.reset.updFace 0 0 (fun f => { f with loads := [op], streams := [op], drain := some dr, tileQ := List.replicate 7 ⟨[], 0, 0, false⟩ })
    op.ended = false ∧ op.failed = false ∧ s.tokenMode 0 0 = false ∧ (s.face 0 0).loads[0]? = some op ∧ (s.face 0 0).streams.head? = some op
      ∧ (s.face 0 0).drain = some dr ∧ nbit (lfImm dr.entry.words) 6 = false ∧ nbit (lfImm dr.entry.words) 7 = false
      ∧ s.storeStalls 0 0 dr.writes = false ∧ (s.face 0 0).tileQ.length < 8 ∧ dt.tiles ≠ []
      ∧ ({ op with src := some (0, []) } : RunOp).src ≠ none ∧ (splitRows (s.cols 0 0) (slabMask op.entry) (tlNrt (lfImm op.entry.words)) 0).length = 1
      ∧ (∀ x ∈ [(0, 1, 0), (511, 1, 31)], let g : QEntry := { entry (lform 1 0 0 0 1 1 1 0) with gc := BitVec.ofNat 64 x.1, gb := BitVec.ofNat 64 x.2.1 }
        g.gc.toNat / 16 ≤ x.2.2 ∧ x.2.2 ≤ (g.gc.toNat + g.gb.toNat - 1) / 16) := by
  decide +kernel

theorem witness_ChuteAndWeevilComplete : ∀ lop ∈ [0x05, 0x0C, 0x0F],
    let op := running (lform lop 0 0 0 1 1 1 0) false
    let s := State.reset.updFace 0 0 (fun f => { f with chute := [op], weevil := some op })
    op.ended = false ∧ s.tokenMode 0 0 = false ∧ (s.face 0 0).chute = [op] ∧ (s.face 0 0).weevil = some op
      ∧ s.storeStalls 0 0 (s.chuteStores 0 0 op).1 = false ∧ s.storeStalls 0 0 op.writes = false := by
  decide +kernel

/-- A tensor to close, a ring slot of each ring, and a deferred signal that fills its queue. -/
theorem witness_SieveAndRingsComplete :
    (let x : SieveTensor := ⟨0, List.replicate 64 0, [], State.reset.tensorBytes 0 0 0 (List.replicate 64 0), [], true⟩
      let s := State.reset.updFace 0 0 (fun f => { f with sieveD := some x, sFull := 1, oFull := 1 })
      (s.face 0 0).sieveD = some x ∧ x.closing = true ∧ s.tensorBytes 0 0 x.hdr x.head = x.before ∧ s.taskState 0 = 0
        ∧ (s.face 0 0).deferred = [] ∧ s.tokenMode 0 0 = false ∧ 0 < (s.face 0 0).sFull ∧ 0 < (s.face 0 0).oFull
        ∧ (s.reg 0 0x48 Off.vecOfmt).getLsbD 7 = false)
    ∧ let w := w32 (2 + 3 * 4 + 4 * 128)
      let s := (withRegs State.reset [(0, 0x10, Off.ctl, 0x10000)]).updFace 0 0 (fun f => { f with deferred := [w], tok := [(3, 1020)] })
      (s.face 0 0).deferred = [w] ∧ s.tokenMode 0 0 = true ∧ wfld w 0 2 = 2 ∧ s.tokens 0 0 (wfld w 2 5 % 16) + wfld w 7 8 = 1024 := by
  decide +kernel

/-! ### Signals and transfers -/

/-- A packet of a type from die `sd` to die `dd`. -/
def pkt (ty dd sd tag aux word1 : Nat) (data : List Byte) : Packet :=
  ⟨BitVec.ofNat 8 ty, 0, BitVec.ofNat 5 dd, 0, 0, 0, BitVec.ofNat 4 (data.length / 64), BitVec.ofNat 5 sd, BitVec.ofNat 14 tag, 0, BitVec.ofNat 6 aux, BitVec.ofNat 64 word1, data⟩

/-- The panel with the main domains of every die on. -/
def powered : State := withRegs State.reset ((List.range 22).map (fun d => (d, 0xF0, Off.cpvDom, 3)))

/-- A state with packets at their dies. -/
def onFabric (s : State) (ps : List Packet) : State := { s with fabric := ps }

/-- A remote signal to Face 0 of Bench 0, at an open and at a fenced Bench, behind an earlier one, and one that fills its queue. -/
theorem witness_SignalsAndStallReports :
    let p := pkt 0x07 0 1 0 0 (2 * 2 ^ 8 + 3 * 2 ^ 10 + 4 * 2 ^ 15) []
    let w := w32 p.word1.toNat
    (p.aux.getLsbD 0 = false ∧ 0 = wfld w 5 3 ∧ p.ptype = 0x07 ∧ p.ddie.toNat = 0 ∧ p ∈ (onFabric powered [p]).fabric ∧ (onFabric powered [p]).rsigAhead p = false
      ∧ powered.deaf 0 = false ∧ (powered.face 0 0).inbox = [] ∧ powered.tokenMode 0 0 = false
      ∧ (powered.updBench 0 (fun x => { x with fenced := true })).deaf 0 = true ∧ p.sdie.toNat < 16)
    ∧ (let p := pkt 0x07 0 1 0 0 0x100 []
      let q := pkt 0x07 0 1 0 0 0x200 []
      (onFabric powered [q, p]).fabric = [] ++ q :: [p] ∧ p ≠ q ∧ q.ptype = 0x07 ∧ q.sdie = p.sdie ∧ q.tag = p.tag ∧ q.ddie = p.ddie
        ∧ wfld (w32 q.word1.toNat) 5 3 = 0)
    ∧ (let s := (withRegs powered [(0, 0x10, Off.ctl, 0x10000)]).updFace 0 0 (fun f => { f with inbox := [p], tok := [(3, 1020)] })
      (s.face 0 0).inbox = [p] ∧ s.tokenMode 0 0 = true ∧ wfld w 8 2 = 2 ∧ s.tokens 0 0 (wfld w 10 5) + wfld w 15 8 = 1024)
    ∧ (∀ n ∈ [1023, 1024], let op := running [w32 (1 + 5 * 2 + 2 * 2 ^ 28), 0, 3, 0] true
      let s := (withRegs powered [(0, 0x10, Off.ctl, 0x10000)]).updFace 0 0 (fun f => { f with chute := [op], tok := [(3, n)] })
      (s.face 0 0).chute = [op] ∧ op.ended = true ∧ s.tokenMode 0 0 = true ∧ lfSk op.entry.words = 2
        ∧ s.tokens 0 0 (lfSix op.entry.words % 16) = n)
    ∧ let s := (withRegs powered [(0, 0, Off.benDepwd, 1)]).updFace 0 0 (fun f => { f with qChute := [entry [w32 11, 1, 0, 0]] })
      s.rfld 0 0 Off.benDepwd 0 24 ≠ 0 ∧ s.waiters 0 0 ≠ 0 ∧ s.unitsIdle 0 0 = true ∧ (s.reg 0 0 Off.benDepStall).getLsbD 0 = false := by
  decide +kernel

/-- A transfer with nothing left to do. -/
def job0 (ended : Bool) (kick : Option Nat) : Job :=
  { todo := [], buf := [], walk := none, stale := false, await := none, slotHeld := false, posted := [], half := none, issuer := 0,
    entry := entry (lform 8 0 0 0 0 0 0 0), kick := kick, rsig := 0, bytes := 64, accesses := 0, srcLine := none, dstLine := none,
    ended := ended, marked := false, into := none }

/-- A page write by firmware. -/
def fwWrite (d : DieId) (p : Fin 256) (v : Nat) : PageWrite := ⟨.fw, ⟨d, p⟩, w32 v⟩

/-- An entry for the Bench Hauler; an ended transfer of a HAUL and of a kick; a kick of slot 7, and slot 7 pending alone. -/
theorem witness_HaulsAndStandingSlots :
    (let e := entry (lform 8 0 0 0 0 0 1 0)
      let s := (withRegs powered [(0, 0x66, Off.ctl, 1)]).updFace 0 0 (fun f => { f with qHauler := [e] })
      (s.face 0 0).qHauler = [e] ∧ (lfImm e.words).testBit 0 = true ∧ s.waitOk 0 0 e.words = true ∧ s.en 0 0x66 = true
        ∧ s.qsc 0 0x66 = false ∧ (s.bench 0).haulQ.length < 16)
    ∧ (∀ k ∈ [none, some 7], let j := job0 true k
      let s := powered.setJob 0 0 (some j)
      s.job 0 0 = some j ∧ j.ended = true ∧ j.slotHeld = false ∧ wfld j.rsig 8 2 = 0 ∧ rsigMalformed j.rsig = false
        ∧ s.tokenMode 0 j.issuer = false)
    ∧ (let s := withRegs powered [(0, 0x60, Off.ctl, 1), (0, 0x60, Off.hlrCfg, 0xFF)]
      s.Accepts .fw 0 0x60 Off.hlrKick ∧ s.en 0 0x60 = true ∧ (s.reg 0 0x60 Off.hlrCfg).getLsbD 7 = true)
    ∧ let s := (withRegs powered [(0, 0x60, Off.ctl, 1)]).updBench 0 (fun x => { x with kicks := [(0, 128)] })
      s.job 0 0 = none ∧ s.qsc 0 0x60 = false ∧ s.en 0 0x60 = true ∧ (s.pendingKicks 0 0).testBit 7 = true
        ∧ ∀ m < 7, (s.pendingKicks 0 0).testBit m = false := by
  unfold State.Accepts; decide +kernel

/-- An empty slot with a good descriptor, and one with a reserved format. -/
theorem witness_KickedSlots : ∀ x ∈ [(0, true), (0xC, false)],
    let s := (withRegs powered [(0, 0x60, Off.ctl, 1), (0, 0x60, Off.hlrSlot, x.1 * 2 ^ 9)]).updBench 0 (fun x => { x with kicks := [(0, 0)] })
    let d := s.slotWords 0 0 0
    dEmpty d = true ∧ ((s.descFaults 0 d ⟨0, 0, false, 0, true⟩).find? (·.1) = none ↔ x.2 = true) := by
  decide +kernel

/-- A request slot of job 0. -/
def slot0 : Slot := ⟨5, 0, 0, loc 1 1 0 0, 64, true, false, 0, 0, 0⟩

/-- A job that waits on a walk. -/
def walkJob : Job := { job0 false none with walk := some (0, false) }

/-- A job that waits for an answer. -/
def waitJob : Job := { job0 false none with await := some 5 }

/-- A level-1 leaf for the first gigabyte in stack A of Bench 0, when `m`. -/
def walkAt (m : Bool) : State :=
  let s := (withRegs powered [(0, 0x78, Off.xltLim, 1), (0, 0x74, Off.hbmCfg, 0)]).setJob 0 0 (some walkJob)
  s.putBytes (loc 1 0 0 0) [if m then 7 else 0]

/-- A walk that finds a mapping, and one that finds none. -/
theorem witness_walk : ((walkAt true).walk 0 0).1.isSome = true ∧ ((walkAt false).walk 0 0).1.isSome = false := by
  constructor <;> decide +kernel

/-- A walk of job 0, and of one that must walk again. -/
theorem witness_WalksAndTimeouts :
    (xltJob ⟨0, 0⟩ = some 0 ∧ (walkAt true).job 0 0 = some walkJob ∧ walkJob.walk = some (0, false))
    ∧ walkJob.stale = false ∧ walkJob.half = none ∧ ((powered.setJob 0 0 (some { walkJob with stale := true })).job 0 0).any (·.stale) = true := by
  decide +kernel

/-- A read of another die's Gallery that may go, and one that must wait. -/
theorem witness_HeldRequests :
    (∀ c ∈ [true, false], let j := { job0 false none with todo := [.get (.place (loc 4 1 0 0)) 64 0], await := none }
      let s := ((withRegs powered [(0, 0x70, Off.ctl, 1)]).setJob 0 0 (some j)).updBench 0 (fun x => { x with clearing := c })
      0 ∈ jobOrder ∧ (s.bench 0).jobs = [(0, some j)] ∧ j.walk = none ∧ j.await = none ∧ j.ended = false ∧ locRegion (loc 4 1 0 0) = 4
        ∧ locDie (loc 4 1 0 0) = 1 ∧ s.benchGone 0 1 = false ∧ s.mustHold 0 (jobClass 0) (loc 4 1 0 0) = c
        ∧ (withRegs s [(0, 0x80, Off.lnkRt + 4, 2 ^ 31)]).routed 0 1 = true) := by
  decide +kernel

/-- A request of tier N that is not answered. -/
theorem witness_Timeouts : let s := (powered.setJob 0 0 (some waitJob)).updBench 0 (fun x => { x with slots := [slot0] })
      s.slotOf 0 5 = some slot0 ∧ slot0.job = 0 ∧ s.job 0 0 = some waitJob ∧ waitJob.await = some 5 ∧ slot0.tiered = true ∧ waitJob.half = none := by
  decide +kernel

/-- A controller that scrubs; a Slab under test; memories in training; a flush of each kind, a way clear and an invalidation. -/
theorem witness_PatrolScrubAndLongEvents :
    (∀ x ∈ [(0, 0x74), (16, 0x10)], let s := withRegs powered [(x.1, x.2, Off.ctl, 1), (x.1, x.2, Off.hbmCfg, 0x11)]
      s.en x.1 x.2 = true ∧ (s.reg x.1 x.2 Off.hbmCfg).getLsbD 4 = true ∧ (s.reg x.1 x.2 Off.hbmCfg).getLsbD 0 = true)
    ∧ ((withRegs powered [(0, 0x20, Off.stat, 2 ^ 21)]).reg 0 0x20 Off.stat).getLsbD 21 = true
    ∧ ((withRegs powered [(0, 0x74, Off.stat, 2 ^ 16)]).reg 0 0x74 Off.stat).extractLsb' 16 2 = 1#2
    ∧ ((withRegs powered [(16, 0x10, Off.stat, 2 ^ 16)]).reg 16 0x10 Off.stat).extractLsb' 16 2 = 1#2 ∧ powered.booting = false
    ∧ ∀ i ∈ [true, false], let s := powered.updBench 0 (fun x => { x with flushing := true, flushInv := i, clearing := true, invBusy := true })
      (s.bench 0).flushing = true ∧ (s.bench 0).flushInv = i ∧ (s.bench 0).clearing = true ∧ (s.bench 0).jobs = [] ∧ (s.bench 0).invBusy = true := by
  decide +kernel

/-! ### Register pages -/

/-- A write that is dropped, and one that is forwarded; a forwarded write at its block. -/
theorem witness_RegisterWritesApplyInOrder :
    (State.reset.dropCode .host (regKey 0 0x78 Off.xltLim) true).isSome = true
    ∧ (let k := regKey 0 0x78 Off.xltLim
      powered.dropCode .fw k (15#4 == 15) = none ∧ (regOf 0 0x78 Off.xltLim).isSome = true ∧ powered.holdsWrite 0 0x78 Off.xltLim = false
        ∧ (powered.sh 0 0x78 Off.ctl).getLsbD 0 = false ∧ keyDie k = 0 ∧ keyPage k = 0x78 ∧ keyOff k = Off.xltLim)
    ∧ (∀ a ∈ [true, false], let w : PageStore := ⟨.fw, regKey 0 0x78 Off.xltLim, 1, 0, a⟩
      let x := powered.regwrPacket w
      let s := onFabric { powered with path := ⟨[w], [], [0], 1, none⟩ } [x]
      s.fabric.find? (fun y => y.ptype == 0x40 && y.ddie.toNat == 0 && packetPage y == 0x78) = some x
        ∧ s.path.forwarded.find? (·.isIn x) = some w ∧ s.pageOff 0 0x78 = false)
    ∧ (onFabric powered [powered.regackPacket 0 7]).fabric.find? (isRegack 7) = some (powered.regackPacket 0 7)
    ∧ powered.fabric.find? (isRegack 7) = none ∧ powered.routed 20 20 = true ∧ powered.routed 20 0 = false
    ∧ (withRegs powered [(20, 0x80, Off.lnkRt, 2 ^ 31)]).routed 20 0 = true := by
  decide +kernel

theorem witness_RegisterWriteHasNoEffect :
    (powered.numbered.flushPage 0 0x78).effect .fw 0 0x78 Off.xltLim 1 powered.path.nextTag = none := rfl

/-- Quiesce asked for and withdrawn, an enable, a lock, and a disable that passes, of a busy block, and of a required one. -/
theorem witness_ControlWritesAct :
    (hasHeader 0 0x78 = true ∧ powered.Accepts .fw 0 0x78 Off.ctl ∧ pageKind 0 0x78 = some .xlt ∧ powered.qsc 0 0x78 = false
      ∧ powered.en 0 0x78 = false)
    ∧ (let s := withRegs powered [(0, 0x78, Off.ctl, 5)]
      s.Accepts .fw 0 0x78 Off.ctl ∧ s.qsc 0 0x78 = true ∧ s.en 0 0x78 = true ∧ s.mayDisable 0 0x78 = true ∧ s.required 0 0x78 = false)
    ∧ (let s := withRegs powered [(0, 0x78, Off.ctl, 1), (0, 0x90, Off.ctl, 1)]
      s.mayDisable 0 0x78 = true ∧ s.required 0 0x78 = true)
    ∧ (let s := (withRegs powered [(0, 0x40, Off.ctl, 1)]).updFace 0 0 (fun f => { f with chute := [running [] false] })
      s.Accepts .fw 0 0x40 Off.ctl ∧ s.en 0 0x40 = true ∧ s.mayDisable 0 0x40 = false) := by
  unfold State.Accepts; decide +kernel

/-- The page of a Face: parked and idle, and running. -/
theorem witness_DepmodeChangesOnlyWhileParked :
    (powered.Accepts .fw 0 0x10 Off.ctl ∧ hasHeader 0 0x10 = true ∧ pageKind 0 0x10 = some .fcc ∧ (powered.reg 0 0x10 Off.ctl).getLsbD 16 = false
      ∧ powered.en 0 0x10 = false ∧ powered.qsc 0 0x10 = false ∧ (powered.face 0 0).parked = true ∧ (powered.face 0 0).queuesEmpty = true
      ∧ powered.unitsIdle 0 0 = true)
    ∧ let s := powered.updFace 0 0 (fun f => { f with parked := false })
      s.Accepts .fw 0 0x10 Off.ctl ∧ (s.face 0 0).parked = false := by
  unfold State.Accepts; decide +kernel

/-- A parked Face and a parked Molt that take a resume, and each reason to refuse one. -/
theorem witness_ResumeStartsParkedCore :
    (∀ x ∈ [(0x10, 0), (0x90, 6)], powered.Accepts .fw 0 x.1 Off.fccResume ∧ (powered.face 0 x.2).parked = true
      ∧ powered.excValid 0 x.2 = false ∧ (powered.face 0 x.2).swap = none ∧ powered.qsc 0 x.1 = false
      ∧ powered.writesBank 0 x.2 (1 - (powered.face 0 x.2).bank.toNat) = false)
    ∧ pageKind 0 0x10 = some .fcc ∧ pageKind 0 0x90 = some .mlt
    ∧ ((powered.updFace 0 0 (fun f => { f with parked := false })).face 0 0).parked = false
    ∧ (withRegs powered [(0, 0x10, Off.fccExc, 0x10000)]).excValid 0 0 = true
    ∧ ((powered.updFace 0 0 (fun f => { f with swap := some ⟨0, 0, true⟩ })).face 0 0).swap ≠ none
    ∧ (withRegs powered [(0, 0x10, Off.ctl, 4)]).qsc 0 0x10 = true
    ∧ ∀ s ∈ [withRegs powered [(0, 0x10, Off.fccExc, 0x10000)], withRegs powered [(0, 0x10, Off.ctl, 4)]],
        s.Accepts .fw 0 0x10 Off.fccResume := by
  unfold State.Accepts; decide +kernel

/-- A parked Molt whose resume without RPC is accepted. -/
theorem witness_ParkStopsAtNextInstruction_resume : pageKind 0 0x90 = some .mlt ∧ powered.Accepts .fw 0 0x90 Off.fccResume
    ∧ (1 : Word).getLsbD 0 = true ∧ (1 : Word).getLsbD 1 = false ∧ (powered.face 0 6).parked = true ∧ powered.excValid 0 6 = false
    ∧ (powered.face 0 6).swap = none ∧ powered.qsc 0 0x90 = false := by
  unfold State.Accepts; decide +kernel

/-- A check that passes and one that fails; a held write; and a block that is quiet. -/
theorem witness_ChecksHeldWritesAndQuiesceEnd :
    (∀ v ∈ [(0, 0, 0), (3, 0xFFF, 0x0002)], let s := { withRegs powered [(0, 0x78, Off.stat, 16)] with verdicts := [(regKey 0 0x78 0, v)] }
      hasHeader 0 0x78 = true ∧ (s.reg 0 0x78 Off.stat).getLsbD 4 = true ∧ s.path.forwarded.all (fun w => !w.isFor 0 0x78) = true
        ∧ smGet (fun _ => (0, 0, 0)) s.verdicts (regKey 0 0x78 0) = v)
    ∧ (let s := withRegs powered [(0, 0x40, Off.stat, 16), (0, 0, Off.ctl, 1)]
      (s.reg 0 0x40 Off.stat).getLsbD 4 = true ∧ ∀ x ∈ s.checkTests 0 0x40, x.1 = false)
    ∧ (let s := withRegs powered [(0, 0x40, Off.stat, 16)]
      ((s.checkTests 0 0x40).find? (·.1)).isSome = true)
    ∧ (let w : PageStore := ⟨.fw, regKey 0 0x78 Off.xltLim, 1, 0, false⟩
      let s := { powered with path := ⟨[], [w], [], 1, none⟩ }
      let s1 := { s with path := { s.path with held := s.path.held.erase w } }
      s.checking 0 0x78 = false ∧ s.path.held.find? (fun x => x.isFor 0 0x78) = some w ∧ s1.dropCode w.agent w.key true = none
        ∧ (regOf 0 0x78 Off.xltLim).isSome = true ∧ (s.sh 0 0x78 Off.ctl).getLsbD 0 = false
        ∧ ((s1.flushPage 0 0x78).effect w.agent 0 0x78 Off.xltLim w.data w.tag).isNone = true)
    ∧ let s := withRegs powered [(0, 0x40, Off.ctl, 5)]
      s.qsc 0 0x40 = true ∧ (s.reg 0 0x40 Off.stat).getLsbD 3 = false ∧ s.pageRun 0 0x40 = false ∧ pageKind 0 0x40 ≠ some .gal
        ∧ (s.bench 0).fencing = none := by
  decide +kernel

/-- Each register that acts when it is written takes a write by firmware. -/
theorem witness_TriggerRegistersAct :
    (∀ x ∈ [(0, 0x10, Off.irqSet), (0, 0x10, Off.fccResume), (0, 0x90, Off.mltResume), (0, 0x10, Off.fccExcClr), (0, 0x48, Off.vecSeedLd),
        (0, 0x78, Off.xltInv), (0, 0x70, Off.galFlush), (0, 0x70, Off.galEpoch), (0, 0x74, Off.hbmTrain), (16, 0x10, Off.stkTrain),
        (0, 0x80, Off.lnkTrain)], powered.Accepts .fw x.1 x.2.1 x.2.2 ∧ hasHeader x.1 x.2.1 = true)
    ∧ (let s := withRegs powered [(0, 0xF0, Off.cpvDom, 3)]
      s.Accepts .fw 0 0x20 Off.slbTest ∧ s.en 0 0x20 = false ∧ (s.reg 0 0x20 Off.stat).getLsbD 21 = false)
    ∧ (powered.face 0 0).parked = true ∧ powered.excValid 0 0 = false ∧ (powered.face 0 0).swap = none ∧ powered.qsc 0 0x10 = false
    ∧ (∀ x ∈ [(0, 0x20), (0, 0x74), (16, 0x10), (0, 0x80)], (withRegs powered [(x.1, x.2, Off.ctl, 1)]).en x.1 x.2 = true)
    ∧ pageKind 0 0x70 = some .gal ∧ pageKind 0 0x78 = some .xlt ∧ ((powered.setJob 0 0 (some walkJob)).job 0 0) = some walkJob
    ∧ powered.lstate 0 0 = 0 ∧ (withRegs powered [(0, 0x80, Off.stat, 0x40000)]).lstate 0 0 = 4 := by
  unfold State.Accepts; decide +kernel

/-- A drain that waits for one acknowledgement and one that waits for none, a rearm, and a masked vector that is lifted. -/
theorem witness_DrainsAndMessages :
    powered.Accepts .fw 20 2 Off.wbgDrain ∧ powered.Accepts .fw 20 0 Off.wbgIrqrearm
    ∧ (let s := { powered with path := ⟨[], [], [3], 4, some 3⟩ }
      s.path.drain = some 3 ∧ (∀ x ∈ s.path.acks, 3 ≤ x) ∧ (∀ w ∈ s.path.forwarded, 3 ≤ w.tag) ∧ ∀ w ∈ s.path.held, 3 ≤ w.tag)
    ∧ (let s := { powered with path := ⟨[], [], [2], 4, some 3⟩ }
      s.path.drain = some 3 ∧ ∃ x ∈ s.path.acks, x < 3)
    ∧ (let s := withRegs powered [(20, 0, Off.wbgIrqsum, 2 ^ 22)]
      (s.reg 20 0 Off.wbgIrqsum).getLsbD 22 = true)
    ∧ let s := { withRegs powered [(20, 0xC1, 12, 2 ^ 31)] with msixOn := true }
      s.msixOn = true ∧ s.msixFnMask = false ∧ (s.reg 20 0xC1 (4 * (127 / 32))).getLsbD (127 % 32) = true := by
  unfold State.Accepts; decide +kernel

/-- A SHUPD on its way, a page that is asked for its values, and reads of a plain and of a Safety register. -/
theorem witness_ShadowsAndReads :
    (let s := onFabric powered [powered.shupdPacket 0 0x78 Off.xltLim [1]];
      s.fabric.find? (s.isShupd 0 0x78 Off.xltLim [1]) = some (powered.shupdPacket 0 0x78 Off.xltLim [1])
        ∧ (regOf 0 0x78 Off.xltLim).isSome = true ∧ Off.xltLim < 0x1000 ∧ Off.xltLim ≠ Off.ctl ∧ Off.xltLim ≠ Off.stat)
    ∧ hasHeader 0 0x78 = true ∧ powered.pageOff 0 0x78 = false
    ∧ powered.fabric.find? (powered.isShupd 0 0x78 Off.xltLim [powered.view 0 0x78 Off.xltLim]) = none
    ∧ (let x := powered.shreqPacket 0 0x78
      (onFabric powered [x]).fabric.find? (fun x => x.ptype == 0x43 && x.ddie.toNat == 0 && packetPage x == 0x78) = some x)
    ∧ (∃ i < 16, (regOf 0 0x78 (64 * 1 + 4 * i)).isSome = true)
    ∧ (∀ x ∈ [(0, 0x78, Off.xltLim), (22, 0x28, Off.safWdexp)], let k := regKey x.1 x.2.1 x.2.2
      k % 4 = 0 ∧ unmapped k = false ∧ powered.pageOff (keyDie k) (keyPage k) = false ∧ (regOf (keyDie k) (keyPage k) (keyOff k)).isSome = true)
    ∧ safReports 0x28 Off.safWdexp ≠ 0 := by
  decide +kernel

/-! ### Collectives -/

/-- A descriptor: KIND, FLAGS, N, SRC and DST, with WL 1 (R295). -/
def collDesc (kind flags n src dst : Nat) : List Byte :=
  leBytes 1 kind ++ leBytes 1 flags ++ leBytes 2 0 ++ leBytes 4 0 ++ leBytes 4 n ++ leBytes 4 0 ++ leBytes 8 src ++ leBytes 8 dst ++ List.replicate 12 0
    ++ [1] ++ List.replicate 19 0

/-- A collective entry on Face 0's queue, with its descriptor at 0 and both engines enabled; Bench 0 is its own group. -/
def collAt (e : QEntry) (d : List Byte) : State :=
  ((withRegs powered [(0, 0x88, Off.ctl, 1), (0, 0x70, Off.ctl, 1), (0, 0x88, Off.cruGroup, 1)]).updFace 0 0 (fun f => { f with qColl := [e] })).putBytes
    (fsLoc 0 0 0) d

/-- The three kinds of group collective. -/
theorem witness_CollectivesStart : ∀ k ∈ [1, 2, 3], let e := entry (lform 0x10 0 0 0 0 0 0 0)
    let s := collAt e (collDesc k 0 16 0x1000 0x2000)
    let d := s.collDesc 0 0 e
    cdf d 0 1 = k ∧ s.waitOk 0 0 e.words = true ∧ s.en 0 0x88 = true ∧ s.qsc 0 0x88 = false ∧ s.seqTurn 0 e = true
      ∧ (s.collStart 0 0 e d).2 = none ∧ s.collReady 0 (s.collStart 0 0 e d).1 = true ∧ (s.bench 0).cru.early = [] := by
  decide +kernel

/-- An atomic batch of one element, a prefetch of one range, and the end of each. -/
theorem witness_CollectivesAndBatchesStart :
    (let e := entry (lform 0x10 0 0 0 0 0 0 0)
      let d := leBytes 1 0xA0 ++ leBytes 3 0 ++ leBytes 4 1 ++ List.replicate 56 0
      let s := collAt e d
      s.en 0 0x70 = true ∧ s.qsc 0 0x70 = false ∧ s.job 0 16 = none ∧ cdf (s.collDesc 0 0 e) 0 1 = 0xA0 ∧ batchBad 0 e.words e.ga.toNat (s.collDesc 0 0 e) = false
        ∧ (match (withRegs s [(0, 0x78, Off.ctl, 1), (0, 0x78, Off.xltLim, 1)]).find 0 (.virt 0) true with | .needWalk va => va == 0 | _ => false) = true)
    ∧ (let e := entry (lform 0x10 0 0 0 0 0 0 0)
      let d := leBytes 1 0xA1 ++ leBytes 1 0 ++ leBytes 2 1 ++ leBytes 4 0 ++ leBytes 8 0x1000 ++ List.replicate 48 0
      let s := collAt e d
      let x := s.collDesc 0 0 e
      cdf x 0 1 = 0xA1 ∧ cdf x 1 1 = 0
        ∧ prefetchBad 0 e.words e.ga.toNat x ((List.range (min 64 (cdf x 2 2))).map (fun i => s.natAs 0 (agentOf 0) (fsLoc 0 0 (cdf x 8 8 + 16 * i + 8)) 8)) = false)
    ∧ ∀ k ∈ [0xA0, 0xA1], let j := { job0 true none with bytes := k }
      let s := powered.setJob 0 16 (some j)
      s.job 0 16 = some j ∧ j.ended = true ∧ j.slotHeld = false ∧ wfld j.rsig 8 2 = 0 ∧ rsigMalformed j.rsig = false ∧ s.tokenMode 0 0 = false := by
  decide +kernel

/-- A REDUCE of 16 FP32 elements over the group of Benches 0 and 1, as Bench 0 has it, tree 1 rooted at Bench 1. -/
def coll0 (el7 : Bool) : Coll :=
  { seq := 0, unit := 0, entry := entry (lform 0x10 0 0 0 0 0 0 0), guard := false, own := 0, desc := collDesc 1 0 256 0x1000 0x2000, memb := 3,
    el7 := el7, rank := 0, tied := [], parent := [(1, 2)], kids := [], win := [(33, 512)], freed := [], upDone := [], downDone := [], cslots := [], busy := [],
    parts := [], forward := [], toLand := [], landed := [], opened := 1, ended := false }

/-- Bench 0 with an active collective and a packet of it. -/
def crusherAt (c : Coll) (p : Packet) : State :=
  onFabric ((withRegs powered [(0, 0x88, Off.ctl, 1)]).updBench 0 (fun x => { x with cru := ⟨[c], []⟩ })) [p]

/-- Each type of packet at its collective, with a chunk's whole data. -/
theorem witness_CollectivePacketsAct : ∀ x ∈ [(0x10, false), (0x11, false), (0x12, false), (0x13, true), (0x14, false)],
    let p := pkt x.1 0 1 0 0 0 (List.replicate 512 0)
    let c := coll0 x.2
    let s := crusherAt c p
    p ∈ s.fabric ∧ p.ddie.toNat < 16 ∧ s.deaf 0 = false ∧ s.packetColl 0 p = some c ∧ pktTree p ∈ c.trees ∧ pktChunk p < c.chunks (pktTree p)
      ∧ (c.gather p).2.isSome = true ∧ c.forward = [] ∧ c.guard = false ∧ c.dstSpace = 0 ∧ s.taskState 0 = 0 ∧ c.el7 = x.2
      ∧ p.data ≠ c.digest ∧ s.coll 0 c.seq = some c ∧ c.ended = false ∧ (c.cslot (pktTree p) (pktChunk p)).own = false ∧ c.srcVirt = false
      ∧ c.thin = false ∧ c.tied = [] := by
  decide +kernel

theorem witness_GrantAgrees : (pkt 0x11 0 1 0 0 0 (coll0 false).digest).data = (coll0 false).digest := rfl

/-- A leaf's chunk with a grant for it, a slice that may land, and a collective that is through. -/
theorem witness_CollectivesSendLandAndComplete :
    (let c := coll0 false
      let s := crusherAt c (pkt 0x14 1 0 0 0 0 [])
      s.coll 0 c.seq = some c ∧ c.ended = false ∧ 1 ∈ c.trees ∧ 0 < c.chunks 1 ∧ c.kind = 1 ∧ c.el7 = false ∧ c.guard = false ∧ c.thin = false
        ∧ c.tied = [] ∧ c.srcVirt = false ∧ smGet (fun _ => false) c.upDone (chunkKey 1 0) = false ∧ c.kidsOf 1 = []
        ∧ c.cslot 1 0 = ⟨0, false, []⟩ ∧ c.fmt = .fp32 ∧ c.parentOf 1 = some 1 ∧ 0 < c.grant 1 1 ∧ s.taskState 0 = 0)
    ∧ (let c := { coll0 true with toLand := [(0, 1, List.replicate 512 7)] }
      let s := crusherAt c (pkt 0x14 1 0 0 0 0 [])
      ((s.bench 0).cru.act.filter (fun c => c.el7 && c.toLand != [])).findSome? (fun c => (s.landable 0 c).map (fun x => (c, x)))
          = some (c, (0, 1, List.replicate 512 7)) ∧ s.tokenMode 0 c.unit = false ∧ s.taskState 0 = 0)
    ∧ let c := { coll0 false with desc := collDesc 1 0 0 0x1000 0x2000 }
      let s := crusherAt c (pkt 0x14 1 0 0 0 0 [])
      s.coll 0 c.seq = some c ∧ c.ended = false ∧ s.collDone 0 c = true ∧ c.guard = false ∧ s.tokenMode 0 c.unit = false
        ∧ wfld (w32 (cdf c.desc 4 4)) 8 2 = 0 ∧ rsigMalformed (w32 (cdf c.desc 4 4)) = false := by
  decide +kernel

/-! ### The fabric -/

/-- Requests and answers at their targets: a read and a write of a Face store, an atomic, and the answers that a job waits for. -/
theorem witness_FabricRequestsServed :
    (∀ x ∈ [(0x01, 4), (0x03, 4), (0x05, 2)], let p := pkt x.1 0 1 5 x.2 (2 ^ 40 - 128) ([0, 0, 1] ++ List.replicate 61 0)
      let s := withRegs (onFabric powered [p]) [(0, 0x70, Off.ctl, 1)]
      p ∈ s.fabric ∧ s.takesRequest p = true ∧ p.sdie ≠ p.ddie ∧ s.uncoreOn 0 = true ∧ State.reset.uncoreOn 0 = false ∧ s.deaf 0 = false ∧ s.taskState 0 ≠ 2 ∧ s.en 0 0x70 = true ∧ (s.bench 0).clearing = false
        ∧ (p.data.getD 1 0).toNat = 0 ∧ (p.data.getD 2 0).toNat = 1
        ∧ (onFabric powered [pkt 0x01 0 1 6 x.2 (2 ^ 40 - 128) [], p]).takesRequest p = false
        ∧ (s.updBench 0 (fun y => { y with fenced := true })).deaf 0 = true)
    ∧ (let far := pkt 0x01 0 1 5 2 (2 ^ 40) []; (onFabric powered [far]).takesRequest far = true ∧ 2 ^ 40 ≤ far.word1.toNat % 2 ^ 48)
    ∧ (pkt 0x05 0 1 5 2 0 ([3, 0, 1] ++ List.replicate 61 0)).data.getD 0 0 = 3#8 ∧ (pkt 0x05 0 1 5 2 0 []).aux.extractLsb' 1 2 = 1#2
    ∧ (∀ x ∈ [(0x02, [Access.get (.place 0) 64 0]), (0x06, [.atom 0 0 0 0 0 none 0])],
      let j := { waitJob with todo := x.2 }
      let p := pkt x.1 0 1 5 0 0 (List.replicate 64 0)
      let s := onFabric ((powered.setJob 0 0 (some j)).updBench 0 (fun y => { y with slots := [slot0] })) [p]
      p ∈ s.fabric ∧ j.half = none ∧ s.slotOf 0 p.tag.toNat = some slot0 ∧ s.job 0 slot0.job = some j ∧ s.taskState 0 = 0 ∧ p.sts = 0
        ∧ j.await = some p.tag.toNat ∧ ({ p with sts := 3 } : Packet).sts ≠ 0)
    ∧ let j := { job0 false none with posted := [5] }
      let p := pkt 0x04 0 1 5 0 0 []
      let s := onFabric ((powered.setJob 0 0 (some j)).updBench 0 (fun y => { y with slots := [slot0] })) [p]
      s.slotOf 0 p.tag.toNat = some slot0 ∧ j.await ≠ some p.tag.toNat ∧ p.tag.toNat ∈ j.posted := by
  decide +kernel

/-- A discovery packet, answers that agree and disagree, a route load, and each fence control packet, good and bad. -/
theorem witness_FabricControlPacketsAct :
    (∀ ty ∈ [0x20, 0x22], let p := pkt ty 0 20 0 0 0 (List.replicate 64 0); p ∈ (onFabric powered [p]).fabric ∧ (onFabric powered [p]).uncoreOn 0 = true)
    ∧ (∀ w ∈ [3 + 32, 4], let p := pkt 0x21 20 3 0 0 w []
      p ∈ (onFabric powered [p]).fabric ∧ (onFabric powered [p]).fstat 0 3 ≠ 3 ∧ (w % 32 = p.sdie.toNat ∧ w / 32 % 4 = dieType p.sdie.toNat ∨ w = 4)
        ∧ (powered.reg 20 0x80 Off.lnkFlog).getLsbD 31 = false)
    ∧ (∀ x ∈ [(0, 0), (1, 1 + 4), (2, 2)], let p := pkt 0x23 3 20 0 0 (x.2 + 3 * 8) []
      p ∈ (onFabric powered [p]).fabric ∧ p.word1.toNat % 4 = x.1 ∧ fctlGood p x.1 = true)
    ∧ (let s := powered.updFace 3 0 (fun f => { f with qTask := [entry []] })
      (s.bench 3).fenced = false ∧ (s.face 3 0).queuesEmpty = false ∧ (pkt 0x23 3 20 0 0 24 []).word1.getLsbD 2 = false
        ∧ (pkt 0x23 3 20 0 0 28 []).word1.getLsbD 2 = true ∧ (s.bench 3).fencing = none)
    ∧ let p := pkt 0x23 3 20 0 0 2 []; p.word1.toNat % 4 = 2 ∧ fctlGood p 2 = false := by
  decide +kernel

/-- Port E of Bench 0 in a state of its link, with all its lanes good. -/
def portAt (st good errs : Nat) : State :=
  (withRegs powered [(0, 0x81, Off.stat, st * 2 ^ 16)]).updPort 0 1 (fun x => { x with good := good, laneErr := [(17, errs)] })

theorem witness_LinksTrainSwapAndCount :
    (partner 0 1).isSome = true ∧ (portAt 1 0 0).lstate 0 1 = 1 ∧ (portAt 1 0 0).fstat 0 3 ≠ 3
    ∧ (∀ good ∈ [0x3FFFC, 0x3FFFE], let s := portAt 2 good 255
      s.lstate 0 1 = 2 ∧ s.rfld 0 (lnkPage 1) Off.lnkCfg 8 8 < smGet (fun _ => 0) (s.port 0 1).laneErr 17
        ∧ ((lanesInUse (s.port 0 1).good).1.testBit 17 = true ∨ good = 0x3FFFE)
        ∧ ((lanesInUse (s.port 0 1).good).2 = 0 ∨ good = 0x3FFFE))
    ∧ (let s := (portAt 2 0x3FFFE 0).updPort 0 1 (fun x => { x with laneErr := [(1, 255)] })
      s.rfld 0 (lnkPage 1) Off.lnkCfg 8 8 < smGet (fun _ => 0) (s.port 0 1).laneErr 1 ∧ (lanesInUse (s.port 0 1).good).1.testBit 1 = true
        ∧ (lanesInUse (s.port 0 1).good).2 ≠ 0)
    ∧ (portAt 3 0 0).lstate 0 1 = 3
    ∧ (∀ n ∈ [0, 127], let s := ((portAt 2 0x3FFFF 0).updPort 0 1 (fun x => { x with fails := 14 })).updPort 1 3 (fun x => { x with replay := List.replicate n ⟨0, [], []⟩ })
      (s.port 0 1).fails < 15 ∧ (s.port 0 1).swapping = false ∧ (s.port 1 3).resend = none ∧ (s.nextFrame 1 3 16).isSome = true)
    ∧ ((portAt 2 0x3FFFF 0).updPort 1 3 (fun x => { x with replay := List.replicate 128 ⟨0, [], []⟩ })).nextFrame 1 3 16 = none
    ∧ partner 0 1 = some (1, 3) := by
  decide +kernel

/-- A frame sent again that nothing disturbs, and with a wrong byte. -/
theorem witness_FrameChecks :
    (((portAt 2 0x3FFFF 0).updPort 1 3 (fun x => { x with replay := [⟨0, List.replicate 40 [], []⟩], resend := some 0 })).nextFrame 1 3 16).any (fun x =>
      crcHolds x.1.flits && leNat ((x.1.flits.getD 39 []).take 2) == ((portAt 2 0x3FFFF 0).port 0 1).expect
        && x.1.seq == ((portAt 2 0x3FFFF 0).port 0 1).expect && !crcHolds (withErrors x.1.flits [(39 * 64, 1)])) = true := by
  decide +kernel

/-- The fabric manager at each of its states, for a Bench that is not marked, and one that is. -/
theorem witness_FenceRequestsAct :
    (∀ st ∈ [0, 1, 2, 3, 4], let s := withRegs powered [(20, 0x80, Off.lnkFstat, st + 5 * 8)]
      s.Accepts .fw 20 0x80 Off.lnkFence ∧ s.fstat 0 3 = st ∧ s.isRetired 5 = false ∧ (s.fstat 16 16).testBit 5 = false)
    ∧ (w32 (2 ^ 31 + 5)).getLsbD 31 = true ∧ (w32 (2 ^ 31 + 5)).getLsbD 9 = false ∧ (w32 (2 ^ 31 + 2 ^ 9 + 5)).getLsbD 9 = true
    ∧ powered.fenceCuts 5 = true
    ∧ (let s := withRegs powered [(20, 0x80, Off.lnkFstat, 4 + 2 ^ 21)]
      (s.fstat 16 16).testBit 5 = true ∧ s.fstat 0 3 ≠ 1 ∧ s.fstat 0 3 ≠ 3)
    ∧ let s := withRegs powered [(20, 0x80, Off.lnkFstat, 1 + 5 * 8 + 2 ^ 8)]
      s.fstat 0 3 = 1 ∧ s.fstat 8 1 = 1 ∧ s.fm.after ≠ 1 ∧ s.fstat 3 5 < 16 ∧ s.inTransit 5 = false
        ∧ (s.updPort 5 0 (fun x => { x with out := [⟨pkt 0x07 6 4 0 0 0 [], some (1, 0)⟩] })).inTransit 5 = true := by
  unfold State.Accepts; decide +kernel

/-- Benches 0 and 1 powered, linked with each other and with the Weighbridge. -/
def linked : State := withRegs State.reset [(0, 0xF0, Off.cpvDom, 3), (1, 0xF0, Off.cpvDom, 3), (0, 0x81, Off.stat, 2 ^ 17), (1, 0x83, Off.stat, 2 ^ 17),
  (0, 0x82, Off.stat, 2 ^ 17), (20, 0x80, Off.stat, 2 ^ 17)]

/-- A fence that cuts nothing off. -/
theorem witness_FenceCutsNothing : linked.fenceCuts 1 = false ∧ linked.isRetired 1 = false := by decide +kernel

/-! ### The Molt and speculation -/

/-- A layer of 8 FP32 parameters with no moments (R315). -/
def layer8 : List Byte := leBytes 4 0 ++ leBytes 4 8 ++ List.replicate 56 0

/-- The Molt of Bench 0 on the LSEL write of general register 1, with one layer, and a pass of layer 0 open when `o`. -/
def lselAt (g : Nat) (o : Bool) : State :=
  let s := withRegs (moltAt (asm 0x0D 0 1 0 0 0 + 0x1040 * 2 ^ 17)) [(0, 0x90, Off.ctl, 1), (0, 0x90, Off.mltLnum, 1), (0, 0x90, Off.mltLtab, 0x1000),
    (0, 0x90, Off.mltLsel, if o then 2 ^ 31 else 0)]
  let s := (s.putBytes (fsLoc 0 6 0x1000) layer8).updCore (coreKey m0) (fun k => { k with gpr := [(1, BitVec.ofNat 64 g)] })
  s.updBench 0 (fun x => { x with molt := { x.molt with entry := layer8, popped := g, chunks := [⟨g, 0, [1], 0, 0, 0⟩] } })

/-- A pass that opens and one of no layer; a pass with and without all its elements; a chunk of no layer and one of the open layer. -/
theorem witness_MoltPassesAndChunks :
    (let w := w32 (asm 0x0D 0 1 0 0 0 + 0x1040 * 2 ^ 17);
      w.extractLsb' 17 15 = 0x1040#15 ∧ opOf w = 0x0D ∧ (∀ g ∈ [0, 1], (lselAt g false).StandsOn m0 w ∧ ((lselAt g false).readG m0 (aOf w)).toNat = g)
        ∧ (0 : Nat) % 4096 < ((lselAt 0 false).reg 0 0x90 Off.mltLnum).toNat ∧ (lselAt 0 false).passOpen 0 = false
        ∧ layerBad ((lselAt 0 false).layerEntry 0 0) = false ∧ ((lselAt 1 false).reg 0 0x90 Off.mltLnum).toNat ≤ 1)
    ∧ (∀ g ∈ [7, 8], (lselAt g true).passOpen 0 = true ∧ (lselAt g true).pass2 0 = false ∧ layerCnt ((lselAt g true).bench 0).molt.entry = 8
        ∧ ((lselAt g true).bench 0).molt.popped = g)
    ∧ ∀ g ∈ [0, 1], (lselAt g true).en 0 0x90 = true
      ∧ ((lselAt g true).bench 0).molt.chunks.find? (fun x => ((lselAt g true).chunkTaken 0 x).isSome) = some ⟨g, 0, [1], 0, 0, 0⟩ := by
  unfold State.StandsOn; decide +kernel

/-- A task of Face 0. -/
def task0 (guard : Option QEntry) (unclean : Bool) : Task :=
  ⟨0, 1, false, false, 1, 1, 0, 0, guard, unclean, guard.isSome, false, none, []⟩

/-- Bench 0 with a task in a state, and a task entry at the head of Face 0's queue. -/
def taskAt (k : Task) (st stat : Nat) (imm : Nat) : State :=
  let s := withRegs powered [(0, 0x98, Off.ctl, 1), (0, 0x98, Off.spcTstat, st), (0, 0x98, Off.stat, stat), (0, 0x98, Off.spcCfg, 1)]
  (s.updFace 0 0 (fun f => { f with qTask := [entry (lform 0x15 0 0 0 0 0 imm 0)] })).updBench 0
    (fun x => { x with task := some k, held := [(fsLoc 0 0 64, some 1), (fsLoc 0 0 65, some 2)] })

/-- A GUARD and an ABORT that start, the two verdicts, a drain, and a stall. -/
theorem witness_SpeculativeTasksEnd :
    (∀ imm ∈ [1, 2], let s := taskAt (task0 none false) 1 0 imm
      let e := entry (lform 0x15 0 0 0 0 0 imm 0)
      (s.bench 0).task = some (task0 none false) ∧ (s.bench 0).jobs = [] ∧ (s.face 0 0).qTask = [e] ∧ s.waitOk 0 0 e.words = true
        ∧ s.taskBusy 0 0 = false ∧ s.en 0 0x98 = true ∧ lfLop e.words = 0x15 ∧ s.taskState 0 = 1 ∧ lfImm e.words % 4 = imm)
    ∧ (∀ u ∈ [true, false], let k := task0 (some (entry [])) u
      (taskAt k 1 0 1).taskState 0 = 1 ∧ k.guard = some (entry []) ∧ k.resolved = true ∧ k.unclean = u ∧ k.sigs = [] ∧ k.ending = none)
    ∧ (let s := taskAt (task0 none false) 2 0x20000 0
      s.taskState 0 = 2 ∧ (s.reg 0 0x98 Off.stat).getLsbD 17 = true ∧ ∀ r ∈ heldRuns (s.bench 0).held, locRegion r.1 = 4)
    ∧ let s := taskAt (task0 none false) 1 0x40000 0
      s.rfld 0 0x98 Off.spcCfg 0 16 ≠ 0 ∧ (s.reg 0 0x98 Off.stat).getLsbD 18 = true ∧ s.taskState 0 = 1 := by
  decide +kernel

/-! ### The command engine -/

/-- A header: VER 1, TYPE, BENCH mask and ARG (R347). -/
def head (ty bench : Nat) (arg : List Byte) : List Byte :=
  padTo 64 0 ([1, BitVec.ofNat 8 ty] ++ List.replicate 18 0 ++ leBytes 2 bench ++ leBytes 2 0 ++ arg)

/-- The panel powered, ring `n` enabled with 64 units each way and room for commands, and rings in a state. -/
def ringAt (n tail : Nat) (r : Ring) : State :=
  let s := withRegs powered [(20, ringPage n, Off.ctl, 1), (20, 0x10, Off.cmdCfg, 16), (20, ringPage n, Off.cmdSqcfg, 12),
    (20, ringPage n, Off.cmdCqcfg, 12), (20, ringPage n, Off.cmdSqtail, tail), (20, ringPage n, Off.cmdTout, 1)]
  s.updRing n (fun _ => r)

/-- Doorbells at the edge of a ring and past it; a fetch by ring 0 and by turn; a header that is taken and one that is not. -/
theorem witness_RingsFetchAndComplete :
    (∀ v ∈ [64, 65], let s := ringAt 0 0 .empty
      s.bellOk 0 = true ∧ w32 v ≠ s.reg 20 0x20 Off.cmdSqtail ∧ (s.ring 0).phase ≠ 2 ∧ ahead (w32 v).toNat (s.rg 0 Off.cmdSqhead) = v ∧ s.sqUnits 0 = 64)
    ∧ powered.bellOk 0 = false
    ∧ (let s := withRegs (ringAt 0 0 .empty) [(20, 0x20, Off.cmdCqtail, 5)];
      w32 5 ≠ s.reg 20 0x20 Off.cmdCqhead ∧ (s.ring 0).ready = []
        ∧ ahead (w32 5).toNat (s.rg 0 Off.cmdCqhead) ≤ ahead (s.rg 0 Off.cmdCqtail) (s.rg 0 Off.cmdCqhead))
    ∧ (ringAt 0 1 .empty).canFetch 0 = true
    ∧ (let s := { ringAt 3 1 .empty with turn := (3, 1) }; s.canFetch 0 = false ∧ 0 < s.turn.2 ∧ s.canFetch s.turn.1 = true)
    ∧ (let s := { ringAt 64 1 .empty with turn := (64, 0) }
      s.canFetch 0 = false ∧ ((List.range 64).map (fun i => (s.turn.1 + i) % 64 + 1)).find? s.canFetch = some 64)
    ∧ (∀ ty ∈ [1, 0], let s := ringAt 0 1 { Ring.empty with phase := 1 }
      let d := if ty = 1 then head 1 1 [] else List.replicate 64 0
      (s.ring 0).phase = 1 ∧ d.length = 64 ∧ (s.ring 0).ready = [] ∧ s.headerCode 0 d = (if ty = 1 then 0 else 0x0D01) ∧ hPlen d = 0
        ∧ s.rg 0 Off.cmdSqtail ≠ s.rg 0 Off.cmdSqhead ∧ (s.reg 20 0x20 Off.cmdErr).getLsbD 31 = false) := by
  decide +kernel

/-- A command in flight, ended or not. -/
def cmd0 (e : Option CmdEnd) : Cmd := ⟨0, head 1 1 [], 0, 1, e, false, false, 0, [], [], []⟩

theorem witness_CommandsEnd :
    (∀ e ∈ [none, some ⟨0, 20, 0, 0, 0, []⟩], let s := ringAt 0 0 { Ring.empty with run := [cmd0 e], timing := true }
      (s.ring 0).run = cmd0 e :: [] ∧ (cmd0 e).ended = e ∧ (cmd0 e).filled = false ∧ (cmd0 e).aborting = false ∧ s.rfld 20 0x20 Off.cmdTout 0 16 ≠ 0
        ∧ (∀ m < 65, (s.ring m).ready = [] ∧ (s.ring m).phase ≠ 2) ∧ (s.ring 0).timing = true) := by
  decide +kernel

/-- A packet of a type at the head of ring `n`, alone. -/
def packetAt (n : Nat) (p : CmdPacket) : State := withRegs (ringAt n 0 { Ring.empty with ready := [p] }) [(0, 0x66, Off.ctl, 1)]

/-- Each host command may start; the Faces, the words and the samples that its clauses ask for. -/
theorem witness_HostCommandsAct :
    (∀ x ∈ [(0x01, []), (0x02, []), (0x03, []), (0x04, [0, 0x01]), (0x05, [0x01]), (0x06, []), (0x07, [])],
      let p : CmdPacket := ⟨head x.1 1 x.2, [], 0⟩
      ((packetAt 0 p).ring 0).ready = [p] ∧ p.code = 0 ∧ (packetAt 0 p).mayStart 0 p = true ∧ hType p.header = x.1 ∧ hAnchor p.header = 0
        ∧ (packetAt 0 p).en 0 0x66 = true ∧ powered.en 0 0x66 = false)
    ∧ (∀ ty ∈ [0x02, 0x03], let p : CmdPacket := ⟨head ty 1 [], [], 0⟩
      let s1 := (packetAt 0 p).beginCmd 0 p none
      if ty = 2 then (s1.vwrite 0 6 6 (hArg p.header 0 8) p.payload).code = 0 else (s1.vread 0 6 6 (hArg p.header 0 8) (hArg p.header 8 4)).code = 0)
    ∧ (let p : CmdPacket := ⟨head 5 1 [0x01], [], 0⟩
      let h := p.header
      (bitList 16 (hBench h)).flatMap (fun b => (bitList 7 (hArg h 0 1)).map (fun u => (b, u))) = [(0, 0)] ∧ hArg h 1 1 = 0
        ∧ ((packetAt 0 p).face 0 0).parked = true ∧ (packetAt 0 p).excValid 0 0 = false ∧ ((packetAt 0 p).face 0 0).swap = none
        ∧ (packetAt 0 p).qsc 0 (ctlPage 0) = false ∧ (((packetAt 0 p).updFace 0 0 (fun f => { f with parked := false })).face 0 0).parked = false)
    ∧ rsigMalformed (w32 16) = true ∧ rsigMalformed (w32 15) = false ∧ powered.benchCtx 15 = 0 ∧ powered.isRetired 15 = false
    ∧ powered.uncoreOn 15 = true ∧ powered.fencedOut 15 = false
    ∧ (let c : Cmd := { cmd0 none with asked := [3], awaited := [3] }
      (ringAt 0 0 { Ring.empty with run := [c] }).oldestCmd (fun c => c.asked.contains 3) = some c)
    ∧ let c : Cmd := { cmd0 none with awaited := [3] }
      (ringAt 0 0 { Ring.empty with run := [c] }).oldestCmd (fun c => c.awaited.contains 3 && !c.asked.contains 3) = some c
        ∧ c.awaited = [3] ∧ c.ended = none ∧ c.aborting = false := by
  decide +kernel

/-- Bench 0 with its Bench Hauler and Gallery, the first gigabyte mapped to its stack A when `m`, and the ways being cleared when `clr`. -/
def mappedAt (m clr : Bool) : State :=
  (withRegs powered [(0, 0x66, Off.ctl, 1), (0, 0x70, Off.ctl, 1), (0, 0x74, Off.ctl, 1), (0, 0x74, Off.hbmCfg, 0), (0, 0x78, Off.ctl, 1)]).updBench 0
    (fun x => { x with clearing := clr, tlb := if m then [(0, 30, 7)] else [] })

/-- A WRITE and a READ of 64 bytes that are done, that fail, and that wait. -/
theorem witness_CommandsMove : ∀ x ∈ [(true, false), (false, false), (true, true)], let s := mappedAt x.1 x.2
    let cs := [(s.vwrite 0 6 6 0 (List.replicate 64 0)).code, (s.vread 0 6 6 0 64).code]
    ∀ c ∈ cs, if x.2 then waitCode ≤ c else if x.1 then c = 0 else 0 < c ∧ c < waitCode := by
  decide +kernel

/-! ### Carapace -/

/-- Context 64 in a state (CAR_CSTATE). -/
def ctxAt (st : Nat) : State := withRegs powered [(21, 0x20, Off.carCstate + 4 * 8, st)]

/-- Each tenant command may start in the states that its clauses name. -/
theorem witness_TenantCommandsAct :
    (∀ x ∈ [(0x10, [64]), (0x10, [0]), (0x10, [65]), (0x11, [64, 0, 1, 0]), (0x12, [64]), (0x13, [64]), (0x14, [64])],
      let p : CmdPacket := ⟨head x.1 0 x.2, [], 0⟩
      ((packetAt 0 p).ring 0).ready = [p] ∧ (packetAt 0 p).mayStart 0 p = true ∧ (packetAt 0 p).carapace.mail = none ∧ hType p.header = x.1
        ∧ (packetAt 0 p).ctxState 64 = 0 ∧ (packetAt 0 p).drbgFailed = false)
    ∧ (∀ st ∈ [1, 2, 3], (ctxAt st).ctxState 64 = st ∧ ((ctxAt st).ctxKeys 64).session = false)
    ∧ ({ powered with carapace := ⟨[(64, { CtxKeys.empty with session := true })], none, false⟩ } : State).ctxKeys 64 = { CtxKeys.empty with session := true }
    ∧ bitList 16 (hArg (head 0x11 0 [64, 0, 1, 0]) 2 2) = [0] ∧ powered.benchCtx 0 = 0 ∧ powered.isRetired 0 = false ∧ powered.fencedOut 0 = false := by
  decide +kernel

/-- KEYX with two points of the curve and with none, QUOTE, and EXPORT of a running context, with the lock clear and set. -/
theorem witness_TenantsOwnCommands :
    (∀ ty ∈ [0x18, 0x19, 0x1A], let p : CmdPacket := ⟨head ty 1 (List.replicate 12 0), [], 0⟩
      ((packetAt 64 p).ring 64).ready = [p] ∧ (packetAt 64 p).mayStart 64 p = true ∧ hType p.header = ty ∧ hArg p.header 8 4 ≤ 262048)
    ∧ (ctxAt 1).ctxState 64 = 1 ∧ (ecPoint (ecBytes (some p256G))).isSome = true ∧ ecPoint (List.replicate 64 0) = none
    ∧ (ctxAt 6).ctxState 64 = 2 ∧ (ctxAt 6).plainExp 64 = true ∧ (ctxAt 6).fuses.pelock = false
    ∧ (let p : CmdPacket := ⟨head 0x1A 1 (List.replicate 12 0), [], 0⟩
      let s := packetAt 64 p
      ((((s.beginCmd 64 p none).bump 21 0 Off.carOps 1).vread 0 6 6 (hArg p.header 0 8) (hArg p.header 8 4)).code = 0 ∧ s.en 0 0x66 = true)) := by
  decide +kernel

/-- A fuse request of an operation that is refused, and one that passes. The two that must be signed, OWNREV and RETIRE, are shown
refused. -/
theorem witness_FuseRequestsProgram :
    (∀ op ∈ [1, 2, 3, 4, 5, 6, 7], let m : Mailbox := ⟨.host, op, 0, 0, 1, [], [], []⟩
      let s := { powered with carapace := ⟨[], some m, false⟩ }
      s.carapace.mail = some m ∧ s.carapace.fusing = false ∧ s.mailCode m ≠ 0)
    ∧ (∀ x ∈ [(2, 7), (5, 0x3F170F), (6, 0x1FFF10F), (7, 0)], let m : Mailbox := ⟨.host, x.1, 0, x.2, 0, List.replicate 64 1, [], []⟩
      ({ powered with carapace := ⟨[], some m, false⟩ } : State).mailCode m = 0)
    ∧ (let m : Mailbox := ⟨.host, 1, 0, 128, 0, [], [], []⟩
      let s := { withRegs powered [(21, 8, Off.carMcnt, 1), (21, 8, Off.carMlog, 2), (21, 8, Off.carMlog + 4, 128)] with carapace := ⟨[], some m, false⟩ };
      s.mailCode m = 0)
    ∧ ({ powered with carapace := ⟨[], none, true⟩ } : State).carapace.fusing = true := by
  decide +kernel

/-! ### Safety, boot and the sideband -/

/-- The panel with a mailbox request by firmware. -/
def smbAt (op a0 a1 : Nat) : State := { powered with safety := { Safety.empty with mail := some ⟨.fw, op, 0, a0, a1, [], [], []⟩ } }

/-- Each operation of the Safety mailbox refused, and passed. -/
theorem witness_SafetyRequestsAct :
    (∀ op ∈ [1, 2, 3, 4, 5, 6, 7], let s := smbAt op 0x10000 0
      s.safety.switching = [] ∧ s.smbCode ⟨.fw, op, 0, 0x10000, 0, [], [], []⟩ ≠ 0)
    ∧ (∀ x ∈ [(2, 0, 0), (3, 15, 0), (4, 0xFFFF, 6), (4, 0, 18), (5, 60000, 0), (6, 0, 0), (7, 0, 0)],
      (smbAt x.1 x.2.1 x.2.2).smbCode ⟨.fw, x.1, 0, x.2.1, x.2.2, [], [], []⟩ = 0)
    ∧ (∀ x ∈ [(1, 16), (2, 0)], let s := ((smbAt x.1 x.2 0).setDomain 16 true).setDomain 0 true
      s.smbCode ⟨.fw, x.1, 0, x.2, 0, [], [], []⟩ = 0 ∧ s.domOn x.2 = true ∧ s.safety.powering = false)
    ∧ (let s := (smbAt 1 0 0).setDomain 16 true
      s.smbCode ⟨.fw, 1, 0, 0, 0, [], [], []⟩ = 0 ∧ s.domOn 0 = false) := by
  decide +kernel

/-- The pins and what waits on them. -/
def pins (perst input waiting : Bool) : State :=
  { State.reset.setDomain 44 true with
    safety := { Safety.empty with perst := perst, inputOk := input, powered := true, brake := waiting }, boot := { Boot.empty with waiting := waiting } }

theorem witness_PanelResetsAct : State.reset.safety.inputOk = false ∧ (pins false true false).safety.inputOk = true
    ∧ (pins false true false).safety.perst = false ∧ (pins false true false).safety.powered = true ∧ (pins true true false).safety.perst = true
    ∧ ((pins true true false).reg 22 0 Off.stat).getLsbD 16 = false ∧ (pins true true false).domOn 44 = true
    ∧ (pins false true true).boot.waiting = true ∧ (pins false true true).boot.rom = true ∧ (pins false true true).boot.drbg = true
    ∧ (let s : State := { pins false true false with boot := { Boot.empty with linkUp := true } }
      s.boot.linkUp = true ∧ s.boot.rom = true ∧ s.boot.drbg = true) := by
  decide +kernel

/-- Samples at the edges of the policy, a fourth sample over the trip, ceilings at their steps, sensors, a ramp, a PLL, the brake and
the watchdog. -/
theorem witness_LimitsAndClocksAct :
    (let s := pins false true false;
      s.pol 4 2 ≤ 3100 ∧ 4100 ≤ s.pol 6 2 ∧ 4000 ≤ s.pol 2 2 ∧ s.pol 2 2 < 4001 ∧ s.safety.inputOk = true
        ∧ ({ s with safety := { s.safety with overTrip := 3 } } : State).safety.overTrip = 3 ∧ s.safety.curCeil = 18 ∧ s.pol 0 2 = 3600)
    ∧ (let s := withRegs (pins false true false) [(22, 0x18, Off.safIin, 3601)];
      s.pol 0 2 < (s.reg 22 0x18 Off.safIin).toNat ∧ 6 < s.safety.curCeil)
    ∧ (let s := { withRegs powered [(22, 0x18, Off.safIin, 3419)] with safety := { Safety.empty with curCeil := 17 } };
      100 * (s.reg 22 0x18 Off.safIin).toNat < 95 * s.pol 0 2 ∧ s.safety.curCeil < 18)
    ∧ (sensorReal ⟨0, 9⟩ = true ∧ sensorReal ⟨20, 1⟩ = true ∧ powered.uncoreOn 0 = true ∧ powered.tempLimit ⟨0, 0⟩ 2 < 106)
    ∧ (let s := { powered with safety := { Safety.empty with thermCeil := [(0, 17)] } };
      s.temp ⟨0, 0⟩ + 5 ≤ s.tempLimit ⟨0, 0⟩ 1 ∧ s.thermCeil 0 < 18)
    ∧ (powered.setDomain 16 true).domOn 16 = true ∧ powered.safety.brake = false
    ∧ (pins false true true).safety.brake = true ∧ (pins false true true).pol 0x1A 2 = 0
    ∧ ({ powered with safety := { Safety.empty with brake := true, policy := builtinPolicy.set 0x1A 1 } } : State).pol 0x1A 2 ≠ 0
    ∧ ((withRegs powered [(22, 0x28, Off.safWdcfg, 2 ^ 31 + 5)]).reg 22 0x28 Off.safWdcfg).getLsbD 31 = true ∧ powered.safety.expired = false := by
  decide +kernel

/-- Boot in a state and a stage, with chunk 0 announced when `len` is not 0. -/
def bootAt (state stage len : Nat) : State := { powered with boot := { Boot.empty with state := state, stage := stage, lenA := len, begun := true } }

/-- Discovery, the link, the window, a chunk of one unit, a chunk that is rejected, and the stages after the bundle. -/
theorem witness_BootGoesOn :
    (bootAt 0 1 0).booting = true ∧ (bootAt 0 1 0).boot.found = false ∧ powered.lstate 20 0 ≠ 2 ∧ linked.lstate 20 0 = 2
    ∧ (let s := (State.reset.setDomain 44 true).setDomain 45 true
      s.domOn 44 = true ∧ s.domOn 45 = true ∧ s.safety.perst = false ∧ s.boot.linkUp = false)
    ∧ (bootAt 1 5 0).boot.lenA = 0 ∧ (bootAt 2 5 0).boot.state ≠ 1
    ∧ ((bootAt 1 5 0).putBytes (bufLoc 0 8) [64]).chunkUnits 0 = 1 ∧ ((w32 (1 * 2 ^ 17)).extractLsb' 17 12).toNat = 1
    ∧ ((bootAt 1 5 1).putBytes (bundleLoc 0) []).checkChunk 0 64 ≠ 0
    ∧ policyOk builtinPolicy = true ∧ policyOk [] = false
    ∧ ({ bootAt 2 7 0 with boot := { (bootAt 2 7 0).boot with trained := true } } : State).boot.trained = true ∧ (bootAt 2 7 0).boot.started = false
    ∧ (bootAt 2 8 0).boot.stage = 8 ∧ (bootAt 3 5 0).boot.state = 3 := by
  decide +kernel

theorem witness_SidebandAnswers : (pins false true false).safety.inputOk = true ∧ State.reset.safety.inputOk = false ∧ (pins false true false).domOn 44 = true
    ∧ State.reset.domOn 44 = false ∧ (4 : Nat) < (255 : BitVec 8).toNat ∧ (List.replicate 416 false).length = 416 := by
  decide +kernel

/-! ### Every command -/

/-- The panel right after reset is canonical, and a step from it answers. -/
theorem witness_CanonicalIsKept : State.reset.Canonical ∧ ∃ t, step { State.reset with pending := [.nop 0] } = .next t :=
  ⟨by unfold State.Canonical; decide +kernel, _, rfl⟩

theorem witness_FusesNeverGoBack : ∃ t, step { State.reset with pending := [.nop 0] } = .next t := ⟨_, rfl⟩

theorem witness_OnlyStepsTakeCommands : State.reset.pending = [] ∧ State.reset.safety.inputOk = false ∧ powered.pending = []
    ∧ (pins false true false).safety.inputOk = true ∧ (∀ b < 16, ((pins false true false).bench b).fencing = none)
    ∧ Instr.wellFormed (.nop 0) = true ∧ ∃ t, exec (.nop 0) State.reset = .next t :=
  ⟨rfl, by decide +kernel, rfl, by decide +kernel, by decide +kernel, by decide +kernel, _, rfl⟩

/-! ### Worked examples of the manual, and hand calculations from its rules -/

/-- A part of the state that a command leaves. -/
def after {α : Type} (o : Host.Outcome State Fault Refusal) (f : State → α) : Option α :=
  match o with
  | .next t => some (f t)
  | _ => none

/-- The worked example of the scope chapter: SLB_CTL of Face 3, Slab 2 of Bench (2, 1) lies at 0x0062_E008. -/
theorem test_slab_page_address : regKey (4 * 1 + 2) (0x20 + 4 * 3 + 2) Off.ctl = 0x62E008 := by decide

/-- The worked example of chapter 02: a configuration write to an enabled page leaves REFUSE at 0x6011_000B. -/
theorem test_refused_configuration_write :
    after (exec (.registerWrite [⟨.fw, false, regKey 6 0x2E 0x44, 1, 15⟩])
      { withRegs powered [(6, 0x2E, Off.ctl, 1), (6, 0xF0, Off.cpvDom, 3)] with shadow := [(regKey 6 0x2E Off.ctl, 1)] })
      (fun t => t.reg 6 0x2E Off.refuse) = some 0x6011000B := by decide +kernel

/-- The worked examples of chapter 03: 300 and 500 to E4M3 (codes 0x79, 0x7E, 0x7F), and 24575 as a random value below 0.375 of 2^16. -/
theorem test_e4m3_rounding :
    (convertElem .e4m3 .nearest false 0 (.fin false 300 0)).1 = 0x79 ∧ (convertElem .e4m3 .stochastic false 24575 (.fin false 300 0)).1 = 0x7A
      ∧ (convertElem .e4m3 .stochastic false 24576 (.fin false 300 0)).1 = 0x79 ∧ (convertElem .e4m3 .nearest true 0 (.fin false 500 0)).1 = 0x7E
      ∧ (convertElem .e4m3 .nearest false 0 (.fin false 500 0)).1 = 0x7F := by decide +kernel

/-- The worked example of R59: the master 0x3F8C_CCCD less 2^-12 is 0x3F8C_C4CD. -/
theorem test_master_step : (f32Lane 1 0 0x3F8CCCCD 0x39800000).1 = 0x3F8CC4CD := by decide +kernel

/-- The worked example of R190: z = 0x9D2C_4A71_0E8B_35F6 starts at expert 7 of 32. -/
theorem test_probe_start : probe 0x9D2C4A710E8B35F6 32 0 = 7 := by decide +kernel

/-- FIPS 180-4: SHA-256 of "abc" begins with 0xBA7816BF. -/
theorem test_sha256_abc : (sha256 [0x61, 0x62, 0x63]).take 4 = [0xBA, 0x78, 0x16, 0xBF] := by decide +kernel

/-- R72: 0 − 1 wraps, and the high half of the product of two maximal numbers is 2^64 − 2. -/
theorem test_alu_wraps :
    after (exec (.alu c0) (coreAt 0 (asm 1 3 1 2 0 1) [(2, 1)])) (fun t => t.readG c0 3) = some 0xFFFFFFFFFFFFFFFF
      ∧ after (exec (.alu c0) (coreAt 0 (asm 1 3 1 1 0 9) [(1, 0xFFFFFFFFFFFFFFFF)])) (fun t => t.readG c0 3) = some 0xFFFFFFFFFFFFFFFE := by
  decide +kernel

/-- R67: a write to g0 is discarded, and the core goes on. -/
theorem test_g0_discards_writes :
    after (exec (.addi c0) (coreAt 0 (asm 2 0 1 5 0 0) [])) (fun t => (t.readG c0 0, (t.core 0).pc)) = some (0, 4) := by decide +kernel

/-- R98: a counter at 2^32 − 1 that gains 1 stays there. -/
theorem test_cadd_clamps :
    after (exec (.cadd c0) ((coreAt 0 (asm 0x0E 2 0 16 0 0) []).updFace 0 0 (fun f => { f with ctr := [(0, 0xFFFFFFFF)] })))
      (fun t => (t.counter 0 0 0, (t.reg 0 0 Off.benDepSat).getLsbD 0)) = some (0xFFFFFFFF, true) := by decide +kernel

/-- R72: the first set bit of p1 = 2^255 is at 255, and of an empty predicate the answer is 256. -/
theorem test_first_set_bit :
    after (exec (.pred c0) ((vecAt (asm 0x1A 3 1 0 0 6) []).updCore 0 (fun k => { k with pred := [(1, BitVec.ofNat 256 (2 ^ 255))] })))
      (fun t => t.readG c0 3) = some 255 := by decide +kernel

/-- R48: in FP32, 1 + 2^-24 rounds to 1, the even neighbour. -/
theorem test_fp32_ties_to_even : (f32Lane 0 0 0x3F800000 0x33800000).1 = 0x3F800000 := by decide +kernel

/-- R342: a tail further ahead than the ring is long halts the ring. -/
theorem test_tail_past_ring_halts : after (exec (.sqTail 0 65) (ringAt 0 0 .empty)) (fun t => t.ringHalted 0) = some true := by decide +kernel

/-- R27: a write to a page without power is dropped and counted. -/
theorem test_dropped_write_counts :
    after (exec (.registerWrite [⟨.fw, false, regKey 0 0x78 Off.xltLim, 1, 15⟩]) State.reset) (fun t => t.reg 20 2 Off.wbgDwcnt) = some 1 := by decide +kernel

/-- R442: the status of a panel that has not begun to boot. -/
theorem test_status_answer :
    after (exec .status (pins false true false)) (fun t => t.side.answer) = some (some [0, 0]) := by decide +kernel

/-- R444: a reset of the test port selects the identification register. -/
theorem test_trst_selects_idcode : after (exec .trstNAssert (pins false true false)) (fun t => t.side.dr) = some 0x11600A35 := by decide +kernel

/-- R343: ring 0 with work is fetched first. -/
theorem test_fetch_ring0 : after (exec .commandFetch (ringAt 0 1 .empty)) (fun t => (t.ring 0).phase) = some 1 := by decide +kernel

/-- R410: the built-in policy trips at 110 °C in the class of boards, and is within its own bounds. -/
theorem test_policy_bytes : builtinPolicy.length = 64 ∧ policyOk builtinPolicy = true := by decide +kernel

end Sys2Proof.Tests
end

section
/-!
SUPPORT. What a register write to a page of a Face or of the Molt does: fields of a word bit by bit, the keys of registers, what the
write path adds to the write's effect, the record of a refusal, and then a write of DEPMODE (R94, R108) and a resume (R93).
-/

namespace Sys2Proof.Machine

/-! ### Fields of a word, bit by bit (R6) -/

/-- A number with one field replaced, as the parts below, in and above the field. -/
theorem putFld_eq_parts (w lo len v : Nat) :
    putFld w lo len v = 2 ^ lo * (2 ^ len * (w / 2 ^ lo / 2 ^ len) + v % 2 ^ len) + w % 2 ^ lo := by
  have hlow := Nat.div_add_mod w (2 ^ lo)
  have hmid := Nat.div_add_mod (w / 2 ^ lo) (2 ^ len)
  have hw : w = 2 ^ lo * (2 ^ len * (w / 2 ^ lo / 2 ^ len)) + 2 ^ lo * (w / 2 ^ lo % 2 ^ len) + w % 2 ^ lo := by
    rw [← Nat.mul_add, hmid, hlow]
  have hcut : w - 2 ^ lo * (w / 2 ^ lo % 2 ^ len) = 2 ^ lo * (2 ^ len * (w / 2 ^ lo / 2 ^ len)) + w % 2 ^ lo := by omega
  simp only [putFld, fld, Nat.shiftLeft_eq, Nat.shiftRight_eq_div_pow]
  rw [Nat.mul_comm _ (2 ^ lo), Nat.mul_comm _ (2 ^ lo), hcut, Nat.mul_add]
  omega

/-- A bit of a number with one field replaced. -/
theorem testBit_putFld (w lo len v i : Nat) :
    (putFld w lo len v).testBit i = if lo ≤ i ∧ i < lo + len then v.testBit (i - lo) else w.testBit i := by
  have hbelow : w % 2 ^ lo < 2 ^ lo := Nat.mod_lt _ (Nat.two_pow_pos lo)
  have hfield : v % 2 ^ len < 2 ^ len := Nat.mod_lt _ (Nat.two_pow_pos len)
  rw [putFld_eq_parts, Nat.testBit_two_pow_mul_add _ hbelow, Nat.testBit_two_pow_mul_add _ hfield]
  by_cases hlo : i < lo
  · simp [hlo, Nat.not_le.2 hlo, Nat.testBit_mod_two_pow]
  · by_cases hin : i - lo < len
    · have hi : lo ≤ i ∧ i < lo + len := by omega
      simp [hlo, hin, hi, Nat.testBit_mod_two_pow]
    · have hi : ¬ (lo ≤ i ∧ i < lo + len) := by omega
      have hpos : i - lo - len + len + lo = i := by omega
      simp [hlo, hin, hi, Nat.testBit_div_two_pow, hpos]

/-- A bit of a register word with one field replaced. -/
@[simp] theorem getLsbD_wput (w : Word) (lo len v i : Nat) :
    (wput w lo len v).getLsbD i = if lo ≤ i ∧ i < lo + len then decide (i < 32) && v.testBit (i - lo) else w.getLsbD i := by
  rw [wput, BitVec.getLsbD_ofNat, testBit_putFld]
  split
  · rfl
  · by_cases hi : i < 32
    · simp [hi, BitVec.getLsbD]
    · simp [hi, BitVec.getLsbD_of_ge w i (Nat.not_lt.1 hi)]

/-! ### Keys and pages (R16, R19) -/

/-- Two registers of one page are told apart by their offsets. -/
@[simp] theorem regKey_same_page (d p o o' : Nat) : regKey d p o = regKey d p o' ↔ o = o' := by unfold regKey; omega

@[simp] theorem keyDie_regKey {d p o : Nat} (hp : p < 0x100) (ho : o < 0x1000) : keyDie (regKey d p o) = d := by
  unfold keyDie regKey; omega

@[simp] theorem keyPage_regKey {d p o : Nat} (hp : p < 0x100) (ho : o < 0x1000) : keyPage (regKey d p o) = p := by
  unfold keyPage regKey; omega

@[simp] theorem keyOff_regKey {d p o : Nat} (ho : o < 0x1000) : keyOff (regKey d p o) = o := by unfold keyOff regKey; omega

/-- No register of a die below the Weighbridge's is one of the Weighbridge's. -/
theorem regKey_ne_weighbridge {d p o : Nat} (hd : d < 20) (hp : p < 0x100) (ho : o < 0x1000) (q o' : Nat) :
    regKey d p o ≠ regKey 20 q o' := by unfold regKey; omega

/-- What a choice of the page map answers, as the condition under which it does. -/
theorem pageChoice_eq_iff (c : Prop) [Decidable c] (a b k : Option PageKind) :
    (if c then a else b) = k ↔ (c ∧ a = k) ∨ (¬ c ∧ b = k) := by
  by_cases h : c
  · rw [if_pos h]
    exact ⟨fun ha => .inl ⟨h, ha⟩, fun hor => hor.elim And.right fun hn => absurd h hn.1⟩
  · rw [if_neg h]
    exact ⟨fun hb => .inr ⟨h, hb⟩, fun hor => hor.elim (fun hc => absurd hc.1 h) And.right⟩

/-- The page of a Face is one of six of a Bench. -/
theorem pageKind_fcc {d p : Nat} (h : pageKind d p = some .fcc) : d < 16 ∧ 0x10 ≤ p ∧ p ≤ 0x15 := by
  simp only [pageKind, pageChoice_eq_iff, Option.some.injEq, reduceCtorEq, Bool.and_eq_true, Bool.or_eq_true, decide_eq_true_eq,
    and_false, and_true, or_false, false_or] at h
  omega

/-- The page of the Molt is page 0x90 of a Bench. -/
theorem pageKind_mlt {d p : Nat} (h : pageKind d p = some .mlt) : d < 16 ∧ p = 0x90 := by
  simp only [pageKind, pageChoice_eq_iff, Option.some.injEq, reduceCtorEq, Bool.and_eq_true, Bool.or_eq_true, decide_eq_true_eq,
    and_false, and_true, or_false, false_or] at h
  omega

/-! ### Reads after writes within a page -/

/-- A write of a register leaves the other registers of its page. -/
theorem State.reg_setReg_ne (s : State) (d p : Nat) (v : Word) {o o' : Nat} (h : o' ≠ o) : (s.setReg d p o v).reg d p o' = s.reg d p o' := by
  rw [State.reg_setReg, if_neg (mt (regKey_same_page d p o' o).1 h)]

/-- A write of a field leaves the other registers of its page. -/
theorem State.reg_setFld_ne (s : State) (d p lo len v : Nat) {o o' : Nat} (h : o' ≠ o) :
    (s.setFld d p o lo len v).reg d p o' = s.reg d p o' := State.reg_setReg_ne s d p _ h

/-- A write of a field leaves the bits of its register beside the field. -/
theorem State.getLsbD_setFld (s : State) (d p o v : Nat) {lo len i : Nat} (h : ¬ (lo ≤ i ∧ i < lo + len)) :
    ((s.setFld d p o lo len v).reg d p o).getLsbD i = (s.reg d p o).getLsbD i := by
  rw [State.reg_setFld, if_pos rfl, getLsbD_wput, if_neg h]

/-! ### An accepted write that acts (R27, R33, R337) -/

variable {s : State}

/-- No write to the page is on its way, so none is left to apply. -/
theorem State.flushPage_of_none_forwarded {d p : Nat} (h : s.path.forwarded.all (fun w => !w.isFor d p) = true) :
    s.flushPage d p = s := by
  have hnot : ∀ w ∈ s.path.forwarded, w.isFor d p = false := by simpa using h
  have hnone : s.path.forwarded.filter (fun w => w.isFor d p && !w.applied) = [] := by
    simpa [List.filter_eq_nil_iff] using fun w hw hfor => absurd hfor (by simp [hnot w hw])
  have hsame : s.path.forwarded.map (fun w => if w.isFor d p then { w with applied := true } else w) = s.path.forwarded :=
    (List.map_congr_left fun w hw => by rw [hnot w hw]; rfl).trans (List.map_id _)
  simp only [State.flushPage, hnone, List.foldl_nil, hsame]

/-- A packet of the Weighbridge to a Bench goes to an output port, or nowhere where no route stands. -/
theorem State.send_to_bench (q : Packet) (hs : q.sdie = 20) (hd : q.ddie.toNat < 16) : ∃ m, s.send q = { s with ports := m } := by
  have hfar : ¬ 20 = min q.ddie.toNat 20 := by omega
  have hsrc : min (BitVec.toNat (20 : BitVec 5)) 20 = 20 := rfl
  simp only [State.send, hs, hsrc, if_neg hfar]
  split
  · exact ⟨s.ports, rfl⟩
  · exact ⟨_, rfl⟩

/-- The packet of a write to a Bench changes the write path and the ports only (R337). -/
theorem State.carry_to_bench (w : PageStore) (hd : keyDie w.key < 16) :
    ∃ π m, s.carry w = { s with path := π, ports := m } := by
  unfold State.carry
  split
  · have hdie : (BitVec.ofNat 5 (keyDie w.key)).toNat < 16 := by rw [BitVec.toNat_ofNat]; omega
    obtain ⟨m, hm⟩ := State.send_to_bench (s := { s with path := { s.path with forwarded := s.path.forwarded ++ [w] } })
      (s.regwrPacket w) rfl hdie
    exact ⟨_, m, hm⟩
  · exact ⟨s.path, s.ports, rfl⟩

/-- A write that no rule drops and no check holds is numbered and accepted (R27, R34). -/
theorem State.busWrite_of_free {a : Agent} {key : Nat} (v : Word) (hdrop : s.dropCode a key true = none)
    (hfree : s.holdsWrite (keyDie key) (keyPage key) (keyOff key) = false) :
    s.busWrite a key v true = s.numbered.acceptWrite a key v s.path.nextTag := by
  have hnumbered : ¬ s.numbered.holdsWrite (keyDie key) (keyPage key) (keyOff key) = true := Bool.eq_false_iff.1 hfree
  unfold State.busWrite
  rw [hdrop]
  exact if_neg hnumbered

/-- An accepted write to a register of a Bench that acts when it is written has that effect; beside it, only the write path and the
ports change. -/
theorem State.Accepts.busWrite {a : Agent} {d p o : Nat} {v : Word} {t : State} (h : s.Accepts a d p o) (hd : d < 16) (hp : p < 0x100)
    (ho : o < 0x1000) (he : s.numbered.effect a d p o v s.path.nextTag = some t) :
    ∃ π m, s.busWrite a (regKey d p o) v true = { t with path := π, ports := m } := by
  obtain ⟨hdrop, hheld, hwin, hfwd⟩ := h
  have hflush : s.numbered.flushPage d p = s.numbered := State.flushPage_of_none_forwarded hfwd
  have hopen : (inWindow d p o && wbit (s.numbered.sh d p Off.ctl) 0) = false := by
    rcases hwin with hwin | hwin
    · rw [hwin, Bool.false_and]
    · exact Bool.and_eq_false_imp.2 fun _ => hwin
  have hfree : s.holdsWrite (keyDie (regKey d p o)) (keyPage (regKey d p o)) (keyOff (regKey d p o)) = false := by
    rwa [keyDie_regKey hp ho, keyPage_regKey hp ho, keyOff_regKey ho]
  have hact : s.numbered.acceptWrite a (regKey d p o) v s.path.nextTag = t.carry ⟨a, regKey d p o, v, s.path.nextTag, true⟩ := by
    simp only [State.acceptWrite, keyDie_regKey hp ho, keyPage_regKey hp ho, keyOff_regKey ho, hopen, hflush, he,
      Bool.false_eq_true, if_false]
  rw [State.busWrite_of_free v hdrop hfree, hact]
  exact State.carry_to_bench _ (by rwa [keyDie_regKey hp ho])

/-- A write of CTL acts as R33 says. -/
theorem State.effect_ctl {d p : Nat} (a : Agent) (v : Word) (tag : Nat) (h : hasHeader d p = true) :
    s.effect a d p Off.ctl v tag = some (s.writeCtl d p v) := by
  simp [State.effect, h]

/-! ### The record of a refusal (R28, R34) -/

/-- Every page has the three interrupt bits of the header (R22). -/
theorem irqBits_mod_eight (d p : Nat) : irqBits d p % 8 = 7 := by
  unfold irqBits
  cases pageKind d p with
  | none => rfl
  | some k => cases k <;> rfl

/-- The registers of a page below the Weighbridge's die when an interrupt is raised there: IRQ_STAT gains the bits it has. -/
theorem State.reg_raise {d p o : Nat} (m : Nat) (hd : d < 20) (hp : p < 0x100) (ho : o < 0x1000) :
    (s.raise d p m).reg d p o =
      if o = Off.irqStat then s.reg d p Off.irqStat ||| (w32 m &&& w32 (irqBits d p)) else s.reg d p o := by
  unfold State.raise
  rw [State.reg_noteIrq _ _ _ (regKey_ne_weighbridge hd hp ho 0) (regKey_ne_weighbridge hd hp ho 0xC1), State.reg_setReg]
  simp only [regKey_same_page]

/-- The registers of a page below the Weighbridge's die when a refusal is recorded there: REFUSE, STAT.REF and IRQ_STAT.REF. -/
theorem State.reg_refuse {d p o : Nat} (cls word code : Nat) (hd : d < 20) (hp : p < 0x100) (ho : o < 0x1000) :
    (s.refuse d p cls word code).reg d p o =
      if o = Off.irqStat then s.reg d p Off.irqStat ||| (w32 1 &&& w32 (irqBits d p))
      else if o = Off.stat then wput (s.reg d p Off.stat) 1 1 1
      else if o = Off.refuse then w32 (cls * 0x10000000 + word * 0x10000 + code)
      else s.reg d p o := by
  unfold State.refuse
  rw [State.reg_raise _ hd hp ho, State.reg_setFld_ne _ _ _ _ _ _ (show Off.irqStat ≠ Off.stat by decide),
    State.reg_setReg_ne _ _ _ _ (show Off.irqStat ≠ Off.refuse by decide), State.reg_setFld,
    State.reg_setReg_ne _ _ _ _ (show Off.stat ≠ Off.refuse by decide), State.reg_setReg]
  simp only [regKey_same_page]

/-- A refusal is recorded in REFUSE and shown by STAT.REF and IRQ_STAT.REF. -/
theorem State.refuse_records {d p : Nat} (cls word code : Nat) (hd : d < 20) (hp : p < 0x100) :
    (s.refuse d p cls word code).reg d p Off.refuse = w32 (cls * 0x10000000 + word * 0x10000 + code)
      ∧ ((s.refuse d p cls word code).reg d p Off.stat).getLsbD 1 = true
      ∧ ((s.refuse d p cls word code).reg d p Off.irqStat).getLsbD 0 = true := by
  have hbit : (irqBits d p).testBit 0 = true := by
    have h := irqBits_mod_eight d p
    rw [Nat.testBit_zero, decide_eq_true_eq]
    omega
  refine ⟨?_, ?_, ?_⟩
  · rw [State.reg_refuse _ _ _ hd hp (by decide)]; rfl
  · rw [State.reg_refuse _ _ _ hd hp (by decide), if_neg (by decide), if_pos rfl, getLsbD_wput]; rfl
  · rw [State.reg_refuse _ _ _ hd hp (by decide), if_pos rfl, w32, w32, BitVec.getLsbD_or, BitVec.getLsbD_and, BitVec.getLsbD_ofNat,
      BitVec.getLsbD_ofNat, hbit]
    exact Bool.or_eq_true_iff.2 (.inr rfl)

/-- A refusal leaves the page's CTL as it is. -/
theorem State.refuse_ctl {d p : Nat} (cls word code : Nat) (hd : d < 20) (hp : p < 0x100) :
    (s.refuse d p cls word code).reg d p Off.ctl = s.reg d p Off.ctl := by
  rw [State.reg_refuse _ _ _ hd hp (by decide)]; rfl

/-- What notes interrupts changes no unit, core or memory. -/
theorem State.Notes.keeps {t : State} (h : State.Notes s t) : t.faces = s.faces ∧ t.cores = s.cores ∧ t.mem = s.mem := by
  obtain ⟨_, _, rfl⟩ := h
  exact ⟨rfl, rfl, rfl⟩

theorem State.Notes.face {t : State} (h : State.Notes s t) (b u : Nat) : t.face b u = s.face b u := by
  simp only [State.face, h.keeps.1]

/-! ### A row's write (R33, R93) -/

/-- A write by a row of its own reaches the Weighbridge where the row is the one for its page and data. -/
theorem State.rowWrite_of_mine (w : PageWrite) (o : Nat) {mine : State → Nat → Nat → Bool}
    (h : mine s w.page.die.val w.page.page.val = true) :
    s.rowWrite w o mine = .next (s.busWrite w.agent (regKey w.page.die.val w.page.page.val o) w.data true) :=
  congrArg Host.Outcome.next (if_pos h)

/-! ### The cores of a unit (R90, R313) -/

/-- The cores of a unit have different keys. -/
theorem State.coreKeys_nodup (s : State) (b u : Nat) : (s.coreKeys b u).Nodup := by
  unfold State.coreKeys
  split
  · exact List.pairwise_map.2 (List.nodup_range.imp fun hne h => hne (Nat.add_left_cancel h))
  · exact List.pairwise_singleton _ _

/-- The same update of several cores changes the cores only. -/
theorem State.foldl_updCore_changes (s : State) (f : Core → Core) (ks : List Nat) :
    ∃ c, ks.foldl (fun s k => s.updCore k f) s = { s with cores := c } := by
  induction ks generalizing s with
  | nil => exact ⟨s.cores, rfl⟩
  | cons k ks ih =>
    obtain ⟨c, hc⟩ := ih (s.updCore k f)
    exact ⟨c, hc⟩

/-- A core after the same update of several cores. -/
theorem State.core_foldl_updCore (s : State) (f : Core → Core) (ks : List Nat) (hks : ks.Nodup) (j : Nat) :
    (ks.foldl (fun s k => s.updCore k f) s).core j = if j ∈ ks then f (s.core j) else s.core j := by
  induction ks generalizing s with
  | nil => rfl
  | cons k ks ih =>
    obtain ⟨hk, hks⟩ := List.nodup_cons.1 hks
    rw [List.foldl_cons, ih _ hks, State.core_updCore]
    by_cases hj : j = k
    · subst hj; simp [hk]
    · simp [hj]

/-- Parking a unit writes no register. -/
theorem State.parkUnit_regs (s : State) (b u cause : Nat) : (s.parkUnit b u cause).regs = s.regs := by
  obtain ⟨c, hc⟩ := s.foldl_updCore_changes (fun c => { c with holding := false }) (s.coreKeys b u)
  simp only [State.parkUnit, hc, State.updFace_regs]

/-- A quiesce request to a unit writes no register but FCC_QDISC (R91, R92). -/
theorem State.reg_quiesceUnit (s : State) {b u d p o : Nat} (disc : Bool) (h : regKey d p o ≠ regKey b (ctlPage u) Off.fccQdisc) :
    (s.quiesceUnit b u disc).reg d p o = s.reg d p o := by
  have hpark : ((if (s.face b u).parked then s else s.parkUnit b u 2) : State).reg d p o = s.reg d p o := by
    split
    · rfl
    · simp only [State.reg, State.parkUnit_regs]
  unfold State.quiesceUnit State.discardQueues
  simp only
  split
  · split
    · rw [State.reg_updFace, hpark]
    · rw [State.reg_bump, if_neg h, State.reg_updFace, hpark]
  · exact hpark

/-! ### A resume (R93) -/

/-- Whether an exception is recorded, and whether quiesce is asked for, stands in the registers alone. -/
theorem State.excValid_of_regs {t : State} (h : t.regs = s.regs) (b u : Nat) : t.excValid b u = s.excValid b u := by
  simp only [State.excValid, State.reg, h]

theorem State.qsc_of_regs {t : State} (h : t.regs = s.regs) (d p : Nat) : t.qsc d p = s.qsc d p := by
  simp only [State.qsc, State.reg, h]

/-- The conditions under which a unit takes a resume (R93): parked, no exception record, no swap, no quiesce request. -/
def State.MayResume (s : State) (b u : Nat) : Prop :=
  (s.face b u).parked = true ∧ s.excValid b u = false ∧ (s.face b u).swap = none ∧ s.qsc b (ctlPage u) = false

/-- A core that a resume sets going (R93): a token that it had popped stays popped only if it goes on at the same instruction. -/
def Core.resumed (swap : Bool) (rpc : Option Nat) (c : Core) : Core :=
  { c with pc := rpc.getD c.pc, stopped := false, holding := false, popped := c.popped && rpc.isNone && !swap }

/-- The cores of a unit set going. -/
def State.resumeCores (s : State) (b u : Nat) (swap : Bool) (rpc : Option Nat) : State :=
  (s.coreKeys b u).foldl (fun s k => s.updCore k (Core.resumed swap rpc)) s

theorem State.resumeCores_changes (s : State) (b u : Nat) (swap : Bool) (rpc : Option Nat) :
    ∃ c, s.resumeCores b u swap rpc = { s with cores := c } := s.foldl_updCore_changes _ _

theorem State.core_resumeCores (s : State) (b u : Nat) (swap : Bool) (rpc : Option Nat) (k : Nat) :
    (s.resumeCores b u swap rpc).core k = if k ∈ s.coreKeys b u then (s.core k).resumed swap rpc else s.core k :=
  s.core_foldl_updCore _ _ (s.coreKeys_nodup b u) k

/-- A resume that is accepted sets the unit's cores going, and ends the parking or asks for the swap. -/
theorem State.resumeUnit_of_mayResume {b u : Nat} (swap : Bool) (rpc : Option Nat) (h : s.MayResume b u) :
    s.resumeUnit b u swap rpc = some (let t := s.resumeCores b u swap rpc
      if swap then t.updFace b u (fun f => { f with swap := some ⟨rpc.getD (t.core (mainCore b u)).pc, mainCore b u, true⟩ })
      else t.updFace b u (fun f => { f with parked := false })) := by
  obtain ⟨hparked, hexc, hswap, hqsc⟩ := h
  exact if_pos (by simp [hparked, hexc, hswap, hqsc])

/-- After an accepted resume every core of the unit runs on from the offset that is given, or else from its own; the unit is no longer
parked, or waits for the swap. -/
theorem State.resumeUnit_accepted {b u : Nat} (swap : Bool) (rpc : Option Nat) (h : s.MayResume b u) :
    ∃ t, s.resumeUnit b u swap rpc = some t ∧ t.regs = s.regs ∧ t.mem = s.mem
      ∧ (∀ k, t.core k = if k ∈ s.coreKeys b u then (s.core k).resumed swap rpc else s.core k)
      ∧ (swap = false → t.face b u = { s.face b u with parked := false })
      ∧ (swap = true → ∃ q : SwapReq, q.resume = true ∧ t.face b u = { s.face b u with swap := some q }) := by
  obtain ⟨m, hm⟩ := s.resumeCores_changes b u swap rpc
  have hcore := s.core_resumeCores b u swap rpc
  have hface : (s.resumeCores b u swap rpc).face b u = s.face b u := by rw [hm]; rfl
  refine ⟨_, s.resumeUnit_of_mayResume swap rpc h, ?_⟩
  cases swap
  · refine ⟨?_, ?_, hcore, ?_, nofun⟩
    · rw [hm]; rfl
    · rw [hm]; rfl
    · simp [State.face_updFace, hface]
  · refine ⟨?_, ?_, hcore, nofun, fun _ => ⟨⟨rpc.getD ((s.resumeCores b u true rpc).core (mainCore b u)).pc, mainCore b u, true⟩, rfl, ?_⟩⟩
    · rw [hm]; rfl
    · rw [hm]; rfl
    · simp [State.face_updFace, hface]

/-- A resume under any other condition is refused. -/
theorem State.resumeUnit_refused {b u : Nat} (swap : Bool) (rpc : Option Nat) (h : ¬ s.MayResume b u) :
    s.resumeUnit b u swap rpc = none := by
  refine if_neg fun hc => h ?_
  simpa [State.MayResume, and_assoc] using hc

/-- The swap that a resume asked for commits where nothing has stopped the unit since: the core goes on from the other bank (R89, R93). -/
theorem State.bankSwapCommit_of_resume {c : CoreId} {b u : Nat} {q : SwapReq} (hb : coreBench c = b) (hu : coreUnit c = u)
    (hq : (s.face b u).swap = some q) (hresume : q.resume = true) (hexc : s.excValid b u = false) (hqsc : s.qsc b (ctlPage u) = false)
    (hbank : s.writesBank b u (1 - (s.face b u).bank.toNat) = false) :
    ∃ r, exec (.bankSwapCommit c) s = .next r ∧ (r.face b u).parked = false ∧ (r.face b u).bank = !(s.face b u).bank
      ∧ r.cores = s.cores := by
  subst hb hu
  refine ⟨_, rfl, ?_⟩
  simp only [hq, hbank, hresume, hexc, hqsc, Bool.false_eq_true, if_false, if_true, Bool.not_false, Bool.and_self]
  split
  · simp [State.face_updFace]
  · have hnotes := State.raise_notes
    refine ⟨?_, ?_, (hnotes _ _ _ _).keeps.2.1⟩
    · rw [(hnotes _ _ _ _).face]; simp [State.face_updFace]
    · rw [(hnotes _ _ _ _).face]; simp [State.face_updFace]

/-- RESUME acts on the unit of its page, a Face or the Molt (R93, R330). -/
theorem State.effect_resume {d p u : Nat}
    (h : (pageKind d p = some .fcc ∧ u = p - 0x10) ∨ (pageKind d p = some .mlt ∧ u = 6)) (s : State) (a : Agent) (v : Word) (tag : Nat) :
    s.effect a d p Off.fccResume v tag = some (s.resumeWrite d p u v) := by
  have hctl : Off.fccResume ≠ Off.ctl := by decide
  have hirq : Off.fccResume ≠ Off.irqSet := by decide
  rcases h with ⟨hk, rfl⟩ | ⟨hk, rfl⟩ <;>
    simp only [State.effect, hk, hctl, hirq, decide_false, Bool.and_false, Bool.false_eq_true, if_false, if_true]

/-- A unit with a RESUME register, and its page (R93, R330). -/
theorem ctlPage_of_unit {d p u : Nat} (h : (pageKind d p = some .fcc ∧ u = p - 0x10) ∨ (pageKind d p = some .mlt ∧ u = 6)) :
    d < 16 ∧ ctlPage u = p := by
  unfold ctlPage
  rcases h with ⟨hk, rfl⟩ | ⟨hk, rfl⟩
  · have := pageKind_fcc hk
    split <;> omega
  · exact ⟨(pageKind_mlt hk).1, (pageKind_mlt hk).2.symm⟩

/-- A write of RESUME.GO is the resume of its unit, or the record of its refusal with 0x0209 (R93). -/
theorem State.resumeWrite_go {d p u : Nat} {v : Word} {r : Option State} (hgo : wbit v 0 = true)
    (hr : s.resumeUnit d u (wbit v 2) (if wbit v 1 then some (s.rfld d p Off.fccRpc 0 17) else none) = r) :
    s.resumeWrite d p u v = r.getD (s.refuse d p 6 0xFFF 0x0209) := by
  unfold State.resumeWrite
  rw [hgo, hr]
  cases r <;> rfl

/-- An accepted write of RESUME.GO: the unit's cores go on, at RPC with USE_RPC and else where they stand, and the unit is no longer
parked, or with SWAP waits for its swap (R89, R93). -/
theorem State.resumeWrite_accepted {d u : Nat} (p : Nat) {v : Word} (hgo : wbit v 0 = true) (h : s.MayResume d u) :
    (s.resumeWrite d p u v).mem = s.mem ∧ (s.resumeWrite d p u v).regs = s.regs
      ∧ (∀ k ∈ s.coreKeys d u, ((s.resumeWrite d p u v).core k).stopped = false)
      ∧ (wbit v 1 = true → ∀ k ∈ s.coreKeys d u, ((s.resumeWrite d p u v).core k).pc = s.rfld d p Off.fccRpc 0 17)
      ∧ (wbit v 1 = false → ∀ k, ((s.resumeWrite d p u v).core k).pc = (s.core k).pc)
      ∧ (wbit v 2 = false → (s.resumeWrite d p u v).face d u = { s.face d u with parked := false })
      ∧ (wbit v 2 = true → ∃ q : SwapReq, q.resume = true
        ∧ (s.resumeWrite d p u v).face d u = { s.face d u with swap := some q }) := by
  obtain ⟨t, hresume, hregs, hmem, hcore, hplain, hswap⟩ :=
    s.resumeUnit_accepted (wbit v 2) (if wbit v 1 then some (s.rfld d p Off.fccRpc 0 17) else none) h
  have ht : s.resumeWrite d p u v = t := State.resumeWrite_go hgo hresume
  rw [ht]
  refine ⟨hmem, hregs, fun k hk => ?_, fun hrpc k hk => ?_, fun hown k => ?_, hplain, hswap⟩
  · rw [hcore, if_pos hk]; rfl
  · rw [hcore, if_pos hk, hrpc]; rfl
  · rw [hcore, hown]; split <;> rfl

/-- A refused write of RESUME.GO records 0x0209 and leaves the unit (R93). -/
theorem State.resumeWrite_refused {d p u : Nat} {v : Word} (hd : d < 20) (hp : p < 0x100) (hgo : wbit v 0 = true)
    (h : ¬ s.MayResume d u) :
    (s.resumeWrite d p u v).reg d p Off.refuse = 0x6FFF0209 ∧ ((s.resumeWrite d p u v).reg d p Off.stat).getLsbD 1 = true
      ∧ ((s.resumeWrite d p u v).reg d p Off.irqStat).getLsbD 0 = true ∧ (s.resumeWrite d p u v).faces = s.faces
      ∧ (s.resumeWrite d p u v).cores = s.cores ∧ (s.resumeWrite d p u v).mem = s.mem := by
  have hrefused : s.resumeWrite d p u v = s.refuse d p 6 0xFFF 0x0209 := State.resumeWrite_go hgo (State.resumeUnit_refused _ _ h)
  obtain ⟨hrefuse, hstat, hirq⟩ := s.refuse_records 6 0xFFF 0x0209 hd hp
  rw [hrefused]
  exact ⟨hrefuse, hstat, hirq, (s.refuse_notes d p 6 0xFFF 0x0209).keeps⟩

/-- A row's write of RESUME of a unit that is accepted: its effect, with the write's own path. -/
theorem exec_fccResume {w : PageWrite} {u : Nat} (hunit : (pageKind w.page.die.val w.page.page.val = some .fcc
    ∧ u = w.page.page.val - 0x10) ∨ (pageKind w.page.die.val w.page.page.val = some .mlt ∧ u = 6))
    (hacc : s.Accepts w.agent w.page.die.val w.page.page.val Off.fccResume) :
    ∃ π m, exec (.fccResume w) s =
      .next { s.numbered.resumeWrite w.page.die.val w.page.page.val u w.data with path := π, ports := m } := by
  have hmine : (isKind .fcc w.page.die.val w.page.page.val || isKind .mlt w.page.die.val w.page.page.val) = true := by
    rcases hunit with ⟨hk, -⟩ | ⟨hk, -⟩ <;> simp [isKind, hk]
  obtain ⟨π, m, hbus⟩ := hacc.busWrite (ctlPage_of_unit hunit).1 w.page.page.isLt (by decide)
    (State.effect_resume hunit s.numbered w.agent w.data s.path.nextTag)
  exact ⟨π, m, (s.rowWrite_of_mine w Off.fccResume (mine := fun _ d p => isKind .fcc d p || isKind .mlt d p) hmine).trans
    (congrArg Host.Outcome.next hbus)⟩

/-! ### A write of DEPMODE (R94, R108) -/

/-- A quiesce request or its withdrawal changes bit 2 of a Face's CTL only (R33, R91). -/
theorem State.getLsbD_ctlQsc {d p i : Nat} (b : Bool) (hk : pageKind d p = some .fcc) (hi : i ≠ 2) :
    ((s.ctlQsc d p b).reg d p Off.ctl).getLsbD i = (s.reg d p Off.ctl).getLsbD i := by
  have hpage : ctlPage (p - 0x10) = p := (ctlPage_of_unit (.inl ⟨hk, rfl⟩)).2
  have hbit : ¬ (2 ≤ i ∧ i < 2 + 1) := by omega
  have hqdisc : regKey d p Off.ctl ≠ regKey d (ctlPage (p - 0x10)) Off.fccQdisc := by
    rw [hpage, Ne, regKey_same_page]
    decide
  unfold State.ctlQsc
  split
  · rfl
  · split
    · rw [State.reg_setFld_ne _ _ _ _ _ _ (by decide), State.getLsbD_setFld _ _ _ _ _ hbit]
    · simp only [hk]
      rw [State.reg_quiesceUnit _ _ hqdisc, State.getLsbD_setFld _ _ _ _ _ hbit]

/-- A refused or an accepted disable changes bit 0 of a Face's CTL only (R33). -/
theorem State.getLsbD_disable {d p i : Nat} (hk : pageKind d p = some .fcc) (hp : p < 0x100) (hi : i ≠ 0) :
    ((s.disable d p).reg d p Off.ctl).getLsbD i = (s.reg d p Off.ctl).getLsbD i := by
  have hd : d < 20 := by have := pageKind_fcc hk; omega
  have hbit : ¬ (0 ≤ i ∧ i < 0 + 1) := by omega
  unfold State.disable
  split
  · rw [State.refuse_ctl _ _ _ hd hp]
  · split
    · rw [State.refuse_ctl _ _ _ hd hp]
    · simp only [State.stopBlock, hk, Option.some.injEq, reduceCtorEq, if_false]
      rw [State.reg_noteIrq _ _ _ (regKey_ne_weighbridge hd hp (by decide) 0) (regKey_ne_weighbridge hd hp (by decide) 0xC1)]
      rw [State.reg_setReg_ne _ _ _ _ (by decide), State.reg_setFld_ne _ _ _ _ _ _ (by decide), State.getLsbD_setFld _ _ _ _ _ hbit]

/-- An enable or a disable changes bit 0 of a Face's CTL only (R28, R33). -/
theorem State.getLsbD_ctlEn {d p i : Nat} (b : Bool) (hk : pageKind d p = some .fcc) (hp : p < 0x100) (hi : i ≠ 0) :
    ((s.ctlEn d p b).reg d p Off.ctl).getLsbD i = (s.reg d p Off.ctl).getLsbD i := by
  unfold State.ctlEn
  split
  · rfl
  · split
    · have hne : Off.ctl ≠ Off.stat := by decide
      exact congrArg (·.getLsbD i) ((State.reg_setFld_ne _ d p 1 1 0 hne).trans (State.reg_setFld_ne _ d p 4 1 1 hne))
    · exact State.getLsbD_disable hk hp hi

/-- The block's bits of a Face's CTL are DISCARD and DEPMODE (R91, R94). -/
theorem State.ctlBlk_fcc {d p : Nat} (v : Word) (hk : pageKind d p = some .fcc) :
    s.ctlBlk d p v = (s.setFld d p Off.ctl 17 1 (wfld v 17 1)).depmode d p (wbit v 16) := by
  simp only [State.ctlBlk, hk]

/-- A change of DEPMODE is refused with 0x0304 while the Face is not parked (R94). -/
theorem State.depmode_of_running {d p : Nat} {b : Bool} (hne : wbit (s.reg d p Off.ctl) 16 ≠ b)
    (hrun : (s.face d (p - 0x10)).parked = false) : s.depmode d p b = s.refuse d p 6 0xFFF 0x0304 := by
  simp only [State.depmode, hne, hrun, if_false, Bool.not_false, if_true]

/-- A change of DEPMODE of a parked Face whose queues are empty and whose units are idle clears its flags, counters and tokens
(R94, R108). -/
theorem State.depmode_of_idle {d p : Nat} {b : Bool} (hne : wbit (s.reg d p Off.ctl) 16 ≠ b)
    (hparked : (s.face d (p - 0x10)).parked = true) (hempty : (s.face d (p - 0x10)).queuesEmpty = true)
    (hidle : s.unitsIdle d (p - 0x10) = true) :
    s.depmode d p b = ((s.setFld d p Off.ctl 16 1 b.toNat).updFace d (p - 0x10) (fun f => { f with flags := 0, ctr := [], tok := [] })).updCore
      (mainCore d (p - 0x10)) (fun c => { c with popped := false }) := by
  simp only [State.depmode, hne, hparked, hempty, hidle, if_false, Bool.not_true, Bool.or_self, Bool.false_eq_true]

/-- How a CTL write ends: LOCK is set where it asks for that, and the shadow of CTL follows (R33, R37). -/
def State.endCtl (s : State) (d p : Nat) (lock : Bool) : State :=
  (if lock then s.setFld d p Off.ctl 3 1 1 else s).showCtl d p

theorem State.writeCtl_eq_endCtl {d p : Nat} {v : Word} (hsrst : wbit v 1 = false) :
    s.writeCtl d p v = (((s.ctlBlk d p v).ctlQsc d p (wbit v 2)).ctlEn d p (wbit v 0)).endCtl d p (wbit v 3) := by
  rw [State.writeCtl, hsrst]
  rfl

/-- The end of a CTL write changes no register but CTL, and in that only LOCK. -/
theorem State.reg_endCtl (s : State) (d p : Nat) (lock : Bool) :
    (∀ o, o ≠ Off.ctl → (s.endCtl d p lock).reg d p o = s.reg d p o)
      ∧ ∀ i, i ≠ 3 → ((s.endCtl d p lock).reg d p Off.ctl).getLsbD i = (s.reg d p Off.ctl).getLsbD i := by
  cases lock
  · exact ⟨fun _ _ => rfl, fun _ _ => rfl⟩
  · have hreg : ∀ o, (s.endCtl d p true).reg d p o = (s.setFld d p Off.ctl 3 1 1).reg d p o := fun _ => rfl
    refine ⟨fun o ho => ?_, fun i hi => ?_⟩
    · rw [hreg, State.reg_setFld_ne _ _ _ _ _ _ ho]
    · have hbit : ¬ (3 ≤ i ∧ i < 3 + 1) := by omega
      rw [hreg, State.getLsbD_setFld _ _ _ _ _ hbit]

/-- The end of a CTL write changes no unit and no memory. -/
theorem State.endCtl_keeps (s : State) (d p : Nat) (lock : Bool) : (s.endCtl d p lock).faces = s.faces ∧ (s.endCtl d p lock).mem = s.mem := by
  cases lock <;> exact ⟨rfl, rfl⟩

theorem State.face_endCtl (s : State) (d p : Nat) (lock : Bool) (b u : Nat) : (s.endCtl d p lock).face b u = s.face b u := by
  simp only [State.face, (s.endCtl_keeps d p lock).1]

/-- A CTL write without SRST leaves DEPMODE as the block's bits have set it. -/
theorem State.depmode_bit_writeCtl {d p : Nat} {v : Word} (hk : pageKind d p = some .fcc) (hp : p < 0x100) (hsrst : wbit v 1 = false) :
    ((s.writeCtl d p v).reg d p Off.ctl).getLsbD 16 = ((s.ctlBlk d p v).reg d p Off.ctl).getLsbD 16 := by
  rw [State.writeCtl_eq_endCtl hsrst, (State.reg_endCtl _ d p _).2 16 (by decide), State.getLsbD_ctlEn _ hk hp (by decide),
    State.getLsbD_ctlQsc _ hk (by decide)]

/-- A CTL write that changes neither EN nor QSC does what its block's bits do, and sets LOCK where it asks for that. -/
theorem State.writeCtl_of_same {d p : Nat} {v : Word} (hsrst : wbit v 1 = false) (hen : (s.ctlBlk d p v).en d p = wbit v 0)
    (hqsc : (s.ctlBlk d p v).qsc d p = wbit v 2) : s.writeCtl d p v = (s.ctlBlk d p v).endCtl d p (wbit v 3) := by
  have hsameQsc : (s.ctlBlk d p v).ctlQsc d p (wbit v 2) = s.ctlBlk d p v := if_pos hqsc
  have hsameEn : (s.ctlBlk d p v).ctlEn d p (wbit v 0) = s.ctlBlk d p v := if_pos hen
  rw [State.writeCtl_eq_endCtl hsrst, hsameQsc, hsameEn]

/-- The write of CTL of a Face that DEPMODE_WRITE makes (R94): its effect, with the write's own path. -/
theorem exec_depmodeWrite {w : PageWrite} (hk : pageKind w.page.die.val w.page.page.val = some .fcc)
    (hacc : s.Accepts w.agent w.page.die.val w.page.page.val Off.ctl) (hsrst : wbit w.data 1 = false)
    (hne : wbit w.data 16 ≠ wbit (s.reg w.page.die.val w.page.page.val Off.ctl) 16) :
    ∃ π m, exec (.depmodeWrite w) s =
      .next { s.numbered.writeCtl w.page.die.val w.page.page.val w.data with path := π, ports := m } := by
  have hheader : hasHeader w.page.die.val w.page.page.val = true := by simp [hasHeader, hk]
  obtain ⟨π, m, hbus⟩ := hacc.busWrite (pageKind_fcc hk).1 w.page.page.isLt (by decide)
    (State.effect_ctl w.agent w.data s.path.nextTag hheader)
  have hmine : (isKind .fcc w.page.die.val w.page.page.val && !wbit w.data 1
      && wbit w.data 16 != wbit (s.reg w.page.die.val w.page.page.val Off.ctl) 16) = true := by
    simp [isKind, hk, hsrst, hne]
  exact ⟨π, m, (s.rowWrite_of_mine w Off.ctl
    (mine := fun s d p => isKind .fcc d p && !wbit w.data 1 && wbit w.data 16 != wbit (s.reg d p Off.ctl) 16) hmine).trans
    (congrArg Host.Outcome.next hbus)⟩

/-- DISCARD set in a Face's CTL leaves its other bits. -/
theorem State.getLsbD_setDiscard (s : State) (d p n : Nat) {i : Nat} (hi : i ≠ 17) :
    ((s.setFld d p Off.ctl 17 1 n).reg d p Off.ctl).getLsbD i = (s.reg d p Off.ctl).getLsbD i :=
  State.getLsbD_setFld _ _ _ _ _ (by omega)

/-- The mode of a Face is DEPMODE of its page (R94, R104). -/
theorem State.tokenMode_fcc {d p : Nat} (s : State) (hk : pageKind d p = some .fcc) :
    s.tokenMode d (p - 0x10) = (s.reg d p Off.ctl).getLsbD 16 := by
  obtain ⟨-, hlo, hhi⟩ := pageKind_fcc hk
  have hpage : 0x10 + (p - 0x10) = p := by omega
  have hface : (p - 0x10 != 6) = true := by rw [bne_iff_ne]; omega
  rw [State.tokenMode, hface, hpage, Bool.true_and, wbit]

section

variable {d p : Nat} {v : Word} (hne : wbit v 16 ≠ wbit (s.reg d p Off.ctl) 16)
include hne

/-- DEPMODE still differs from the value written when DISCARD has been set. -/
theorem State.depmode_ne_setDiscard : wbit ((s.setFld d p Off.ctl 17 1 (wfld v 17 1)).reg d p Off.ctl) 16 ≠ wbit v 16 := by
  rw [wbit, State.getLsbD_setDiscard _ _ _ _ (by decide)]
  exact hne.symm

variable (hk : pageKind d p = some .fcc)
include hk

/-- The block's bits of a CTL write that would change DEPMODE of a Face that is not parked (R94). -/
theorem State.ctlBlk_of_running (hrun : (s.face d (p - 0x10)).parked = false) :
    s.ctlBlk d p v = (s.setFld d p Off.ctl 17 1 (wfld v 17 1)).refuse d p 6 0xFFF 0x0304 := by
  rw [State.ctlBlk_fcc v hk, State.depmode_of_running (State.depmode_ne_setDiscard hne) hrun]

/-- The refused change leaves every bit of CTL but DISCARD. -/
theorem State.getLsbD_ctlBlk_of_running (hp : p < 0x100) (hrun : (s.face d (p - 0x10)).parked = false) {i : Nat} (hi : i ≠ 17) :
    ((s.ctlBlk d p v).reg d p Off.ctl).getLsbD i = (s.reg d p Off.ctl).getLsbD i := by
  have hd : d < 20 := by have := (pageKind_fcc hk).1; omega
  rw [State.ctlBlk_of_running hne hk hrun, State.refuse_ctl _ _ _ hd hp, State.getLsbD_setDiscard _ _ _ _ hi]

/-- A CTL write that would change DEPMODE of a Face that is not parked leaves the mode; where it changes neither EN nor QSC, the refusal
is recorded with 0x0304 and no unit and no memory changes (R94). -/
theorem State.writeCtl_depmode_of_running (hp : p < 0x100) (hsrst : wbit v 1 = false) (hrun : (s.face d (p - 0x10)).parked = false) :
    (s.writeCtl d p v).tokenMode d (p - 0x10) = s.tokenMode d (p - 0x10)
      ∧ (wbit v 0 = s.en d p → wbit v 2 = s.qsc d p → (s.writeCtl d p v).reg d p Off.refuse = 0x6FFF0304
        ∧ (s.writeCtl d p v).faces = s.faces ∧ (s.writeCtl d p v).mem = s.mem
        ∧ ((s.writeCtl d p v).reg d p Off.stat).getLsbD 1 = true ∧ ((s.writeCtl d p v).reg d p Off.irqStat).getLsbD 0 = true) := by
  have hd : d < 20 := by have := (pageKind_fcc hk).1; omega
  have hbit := fun i => State.getLsbD_ctlBlk_of_running hne hk hp hrun (i := i)
  refine ⟨?_, fun hen hqsc => ?_⟩
  · rw [State.tokenMode_fcc _ hk, State.tokenMode_fcc _ hk, State.depmode_bit_writeCtl hk hp hsrst, hbit 16 (by decide)]
  · obtain ⟨hrefuse, hstat, hirq⟩ := (s.setFld d p Off.ctl 17 1 (wfld v 17 1)).refuse_records 6 0xFFF 0x0304 hd hp
    obtain ⟨hfaces, -, hmem⟩ := ((s.setFld d p Off.ctl 17 1 (wfld v 17 1)).refuse_notes d p 6 0xFFF 0x0304).keeps
    rw [State.writeCtl_of_same hsrst ((hbit 0 (by decide)).trans hen.symm) ((hbit 2 (by decide)).trans hqsc.symm),
      State.ctlBlk_of_running hne hk hrun]
    obtain ⟨hendFaces, hendMem⟩ := State.endCtl_keeps ((s.setFld d p Off.ctl 17 1 (wfld v 17 1)).refuse d p 6 0xFFF 0x0304) d p (wbit v 3)
    obtain ⟨hendReg, -⟩ := State.reg_endCtl ((s.setFld d p Off.ctl 17 1 (wfld v 17 1)).refuse d p 6 0xFFF 0x0304) d p (wbit v 3)
    rw [hendFaces, hendMem, hendReg _ (by decide), hendReg _ (by decide), hendReg _ (by decide)]
    exact ⟨hrefuse, hfaces, hmem, hstat, hirq⟩

variable (hparked : (s.face d (p - 0x10)).parked = true) (hempty : (s.face d (p - 0x10)).queuesEmpty = true)
  (hidle : s.unitsIdle d (p - 0x10) = true)
include hparked hempty hidle

/-- The block's bits of a CTL write that changes DEPMODE of a parked Face whose queues are empty and whose units are idle (R94, R108). -/
theorem State.ctlBlk_of_idle :
    s.ctlBlk d p v = (((s.setFld d p Off.ctl 17 1 (wfld v 17 1)).setFld d p Off.ctl 16 1 (wbit v 16).toNat).updFace d (p - 0x10)
      (fun f => { f with flags := 0, ctr := [], tok := [] })).updCore (mainCore d (p - 0x10)) (fun c => { c with popped := false }) := by
  rw [State.ctlBlk_fcc v hk, State.depmode_of_idle (State.depmode_ne_setDiscard hne) hparked hempty hidle]

/-- The change sets DEPMODE, and leaves every other bit of CTL but DISCARD. -/
theorem State.getLsbD_ctlBlk_of_idle {i : Nat} (hi : i ≠ 17) :
    ((s.ctlBlk d p v).reg d p Off.ctl).getLsbD i = if i = 16 then wbit v 16 else (s.reg d p Off.ctl).getLsbD i := by
  rw [State.ctlBlk_of_idle hne hk hparked hempty hidle, State.reg_updCore, State.reg_updFace, State.reg_setFld, if_pos rfl, getLsbD_wput,
    State.getLsbD_setDiscard _ _ _ _ hi]
  by_cases h : i = 16
  · subst h; cases wbit v 16 <;> rfl
  · have hbit : ¬ (16 ≤ i ∧ i < 16 + 1) := by omega
    rw [if_neg hbit, if_neg h]

/-- A CTL write that changes DEPMODE of a parked, idle Face, and neither EN nor QSC: the Face takes the mode, its flags, counters and
tokens are cleared, and memory stays as it is (R94, R108). -/
theorem State.writeCtl_depmode_of_idle (hp : p < 0x100) (hsrst : wbit v 1 = false) (hen : wbit v 0 = s.en d p)
    (hqsc : wbit v 2 = s.qsc d p) :
    (s.writeCtl d p v).tokenMode d (p - 0x10) = wbit v 16
      ∧ (s.writeCtl d p v).face d (p - 0x10) = { s.face d (p - 0x10) with flags := 0, ctr := [], tok := [] }
      ∧ (s.writeCtl d p v).mem = s.mem := by
  have hbit := fun i => State.getLsbD_ctlBlk_of_idle hne hk hparked hempty hidle (i := i)
  refine ⟨?_, ?_⟩
  · rw [State.tokenMode_fcc _ hk, State.depmode_bit_writeCtl hk hp hsrst, hbit 16 (by decide), if_pos rfl]
  · rw [State.writeCtl_of_same hsrst ((hbit 0 (by decide)).trans hen.symm) ((hbit 2 (by decide)).trans hqsc.symm),
      State.face_endCtl, (State.endCtl_keeps _ _ _ _).2, State.ctlBlk_of_idle hne hk hparked hempty hidle, State.face_updCore,
      State.face_updFace, if_pos rfl]
    exact ⟨rfl, rfl⟩

end

end Sys2Proof.Machine

open Sys2Proof Sys2Proof.Machine

/-- Settles O35, by what an accepted and what a refused write of RESUME.GO does, and the commit of the swap that it asked for. -/
theorem resumeStartsParkedCore : Obligations.ResumeStartsParkedCore := by
  unfold Obligations.ResumeStartsParkedCore
  intro w u s d p v accepted goesOn hunit hacc hgo
  obtain ⟨hd, hctl⟩ := ctlPage_of_unit hunit
  have hmay : accepted ↔ s.numbered.MayResume d u := by
    rw [State.MayResume, hctl]
    exact Iff.rfl
  obtain ⟨π, m, hexec⟩ := exec_fccResume hunit hacc
  have hresumed := fun ha => s.numbered.resumeWrite_accepted p hgo (hmay.1 ha)
  refine ⟨fun ha hswap => ?_, fun ha hswap => ?_, fun ha => ?_⟩
  · obtain ⟨hmem, hregs, hstopped, hrpc, hown, hplain, -⟩ := hresumed ha
    exact ⟨_, hexec, ⟨hmem, hregs, fun k hk => ⟨hstopped k hk, fun h => hrpc h k hk⟩, fun h => hown h _⟩,
      congrArg Face.parked (hplain hswap)⟩
  · obtain ⟨hmem, hregs, hstopped, hrpc, hown, -, hasked⟩ := hresumed ha
    obtain ⟨hparked, hexc, -, hqsc⟩ := ha
    obtain ⟨q, hq, hface⟩ := hasked hswap
    refine ⟨_, hexec, ⟨hmem, hregs, fun k hk => ⟨hstopped k hk, fun h => hrpc h k hk⟩, fun h => hown h _⟩,
      (congrArg Face.parked hface).trans hparked, congrArg (fun f : Face => f.swap.isSome) hface, fun c hb hu hbank => ?_⟩
    have hbankSame : (s.face d u).bank = _ := (congrArg Face.bank hface).symm
    rw [hbankSame] at hbank ⊢
    exact State.bankSwapCommit_of_resume hb hu (congrArg Face.swap hface) hq ((State.excValid_of_regs hregs d u).trans hexc)
      ((State.qsc_of_regs hregs d _).trans (hctl ▸ hqsc)) hbank
  · exact ⟨_, hexec, State.resumeWrite_refused (by omega) w.page.page.isLt hgo (fun hm => ha (hmay.2 hm))⟩

/-- Settles O33, by what a CTL write that changes DEPMODE does to a Face that is not parked, and to one that is parked and idle. -/
theorem depmodeChangesOnlyWhileParked : Obligations.DepmodeChangesOnlyWhileParked := by
  unfold Obligations.DepmodeChangesOnlyWhileParked
  intro w s d p u v hk hacc hsrst hne
  obtain ⟨π, m, hexec⟩ := exec_depmodeWrite hk hacc hsrst hne
  have hp : p < 0x100 := w.page.page.isLt
  refine ⟨_, hexec, fun hrun => ?_, fun hparked hempty hidle hen hqsc => ?_⟩
  · exact State.writeCtl_depmode_of_running (s := s.numbered) hne hk hp hsrst hrun
  · obtain ⟨hmode, hface, hmem⟩ :=
      State.writeCtl_depmode_of_idle (s := s.numbered) hne hk hparked hempty hidle hp hsrst hen hqsc
    refine ⟨hmode, congrArg Face.flags hface, fun q => ⟨?_, ?_⟩, hmem⟩
    · exact congrArg (fun f : Face => smGet (fun _ => 0) f.ctr q) hface
    · exact congrArg (fun f : Face => smGet (fun _ => 0) f.tok q) hface

end

section
/-!
SUPPORT. The dependences of a long form: what its WAIT takes and its SIGNAL gives (R98, R103 to R106), when a form gives way to a
queue of higher rank (R105), and then the issue and the release of an LSYNC (R79, R103).
-/

namespace Sys2Proof.Machine

variable (s : State) (b u : Nat) (ws : List Word)

/-! ### Flags, counters and tokens after writes (R97, R98, R104) -/

@[simp] theorem State.tokenMode_updFace (b' u' : Nat) (f : Face → Face) : (s.updFace b' u' f).tokenMode b u = s.tokenMode b u := rfl
@[simp] theorem State.tokens_updCore (k : Nat) (f : Core → Core) (q : Nat) : (s.updCore k f).tokens b u q = s.tokens b u q := rfl

/-- A flag after a flag is set. -/
theorem State.flags_setFlag {i j : Nat} (hj : j < 32) :
    ((s.setFlag b u i true).face b u).flags.getLsbD j = ((s.face b u).flags.getLsbD j || decide (j = i)) := by
  have hput : ((s.setFlag b u i true).face b u).flags = wput (s.face b u).flags i 1 1 := by
    simp [State.setFlag, State.face_updFace, wput]
  rw [hput, getLsbD_wput]
  by_cases h : j = i
  · subst h; simp [hj]
  · have hout : ¬ (i ≤ j ∧ j < i + 1) := by omega
    rw [if_neg hout, decide_eq_false h, Bool.or_false]

/-- A counter after a counter is loaded. -/
theorem State.counter_setCounter (c n k : Nat) : (s.setCounter b u c n).counter b u k = if k = c then n else s.counter b u k := by
  simp [State.counter, State.setCounter, State.face_updFace, smGet_smSet]

/-- A queue's tokens after a push. -/
theorem State.tokens_pushTokens (q n k : Nat) :
    (s.pushTokens b u q n).tokens b u k = s.tokens b u k + if k = q then n else 0 := by
  by_cases h : k = q <;> simp [State.tokens, State.pushTokens, State.face_updFace, smGet_smSet, h]

/-- A queue's tokens after a pop. -/
theorem State.tokens_popToken (q k : Nat) :
    (s.popToken b u q).tokens b u k = s.tokens b u k - if k = q then 1 else 0 := by
  by_cases h : k = q <;> simp [State.tokens, State.popToken, State.face_updFace, smGet_smSet, h]

/-- An increment of a counter loads the sum, up to 2^32 − 1, and may note an interrupt (R98, R115). -/
theorem State.addCounter_notes (c n : Nat) :
    State.Notes (s.setCounter b u c (min 4294967295 (s.counter b u c + n))) (s.addCounter b u c n) := by
  have hclamp : (if (s.counter b u c : Int) + n < 0 then 0 else if 4294967295 < (s.counter b u c : Int) + n then 4294967295
      else ((s.counter b u c : Int) + n).toNat) = min 4294967295 (s.counter b u c + n) := by
    split
    · omega
    · split <;> omega
  simp only [State.addCounter, hclamp]
  split
  · exact State.Notes.refl _
  · exact (State.setFld_notes _ _ _ _ _ _ _).trans (State.raise_notes _ _ _ _)

/-- A counter after an increment of a counter. -/
theorem State.counter_addCounter (c n k : Nat) :
    (s.addCounter b u c n).counter b u k = if k = c then min 4294967295 (s.counter b u k + n) else s.counter b u k := by
  rw [State.counter, (s.addCounter_notes b u c n).face]
  refine (s.counter_setCounter b u c _ k).trans ?_
  by_cases h : k = c
  · subst h; rfl
  · rw [if_neg h, if_neg h]

/-- An increment of a counter leaves the flags. -/
theorem State.flags_addCounter (c n : Nat) : ((s.addCounter b u c n).face b u).flags = (s.face b u).flags := by
  rw [(s.addCounter_notes b u c n).face, State.setCounter, State.face_updFace, if_pos rfl]

/-! ### The SIGNAL of a long form (R98, R104) -/

/-- A SIGNAL writes its unit, and in flag mode may note an interrupt: no core and no memory changes. -/
theorem State.giveSignal_keeps : (s.giveSignal b u ws).cores = s.cores ∧ (s.giveSignal b u ws).mem = s.mem := by
  unfold State.giveSignal
  split
  · split <;> exact ⟨rfl, rfl⟩
  · split
    · exact ⟨rfl, rfl⟩
    · split
      · exact (State.addCounter_notes s b u _ _).keeps.2
      · exact ⟨rfl, rfl⟩

theorem State.core_giveSignal (k : Nat) : (s.giveSignal b u ws).core k = s.core k := by
  simp only [State.core, (s.giveSignal_keeps b u ws).1]

/-- The given SIGNAL acts as its SK says. -/
theorem State.giveSignal_signals : s.Signals (s.giveSignal b u ws) b u ws := by
  unfold State.Signals State.giveSignal
  cases hmode : s.tokenMode b u with
  | true =>
    by_cases hpush : lfSk ws = 2
    · simp [hpush, State.tokens_pushTokens]
    · simp [hpush]
  | false =>
    by_cases hset : lfSk ws = 1
    · have hflags := fun j (hj : j < 32) => s.flags_setFlag b u (i := lfSix ws) hj
      have hcounters : ∀ k, (s.setFlag b u (lfSix ws) true).counter b u k = s.counter b u k := by
        simp [State.counter, State.setFlag, State.face_updFace]
      simpa [hset, hcounters] using hflags
    · by_cases hadd : lfSk ws = 2
      · simp [hadd, State.flags_addCounter, State.counter_addCounter]
      · simp [hset, hadd]

/-! ### The order of R105 -/

variable {s b u ws}

/-- Without token mode no form gives way. -/
theorem State.outranked_of_flagMode (h : s.tokenMode b u = false) (ahead : List QueueId) : s.outranked b u ws ahead = false := by
  simp [State.outranked, h]

/-- A form whose pop leaves a token gives way to none. -/
theorem State.outranked_of_two_tokens (h : 2 ≤ s.tokens b u (lfWcn ws)) (ahead : List QueueId) : s.outranked b u ws ahead = false := by
  have hlast : s.tokens b u (lfWcn ws) ≠ 1 := by omega
  simp [State.outranked, hlast]

/-- A queue without entries has no head that could start. -/
theorem State.headReady_of_empty {q : QueueId} (h : (s.face b u).queue q = []) : s.headReady b u q = false := by
  simp [State.headReady, h]

/-- A form of a unit whose queues are empty gives way to none. -/
theorem State.outranked_of_queuesEmpty (h : (s.face b u).queuesEmpty = true) : s.outranked b u ws allQueues = false := by
  have hempty : ∀ q ∈ allQueues, s.headReady b u q = false := fun q hq =>
    State.headReady_of_empty (List.isEmpty_iff.1 (List.all_eq_true.1 h q hq))
  exact Bool.and_eq_false_imp.2 fun _ => List.any_eq_false.2 fun q hq => by simp [hempty q hq]

theorem mem_allQueues (q : QueueId) : q ∈ allQueues := by cases q <;> decide

/-- A form that would pop the last token of a queue gives way to a head of the core's unit queues that is ready to pop it. -/
theorem State.outranked_of_readyHead {q : QueueId} {e : QEntry} {rest : List QEntry} (hmode : s.tokenMode b u = true)
    (hwc : lfWc ws = true) (hlast : s.tokens b u (lfWcn ws) = 1) (hhead : (s.face b u).queue q = e :: rest)
    (hready : s.headReady b u q = true) (hpops : lfWc e.words = true) (hsame : lfWcn e.words = lfWcn ws) :
    s.outranked b u ws allQueues = true := by
  simp only [State.outranked, hmode, hwc, hlast, beq_self_eq_true, Bool.and_self, Bool.true_and]
  exact List.any_eq_true.2 ⟨q, mem_allQueues q, by simp [hready, hhead, hpops, hsame]⟩

/-! ### A long form that its core issues (R76, R79) -/

/-- A core that stands on a long form of the row, without a fault, issues it. -/
theorem State.StandsOnLong.issueLong {c : CoreId} {lop : Nat} (h : s.StandsOnLong c lop) (mine : Nat → List Word → Bool)
    (eff : List Word → State) (hmine : mine lop (s.fetchLong c) = true) : s.issueLong c mine eff = eff (s.fetchLong c) := by
  obtain ⟨hrun, hlong, hlop, halign, hbank, hfaults⟩ := h
  have hissues : (s.running c && isLong (s.fetch c 0) && mine (lfLop (s.fetchLong c)) (s.fetchLong c)) = true := by
    simp [isLong, wbit, hrun, hlong, hlop, hmine]
  have hnext : ¬ 0x20000 ≤ (s.core (coreKey c)).pc + 16 := Nat.not_le.2 hbank
  have hnone : (s.longFaults c (s.fetchLong c)).find? (·.1) = none :=
    List.find?_eq_none.2 fun f hf => by simp [hfaults f hf]
  simp [State.issueLong, hissues, halign, hnext, hnone]

/-! ### LSYNC (R79, R103) -/

/-- The core goes on behind its LSYNC. -/
def Core.released (k : Core) : Core := { k with holding := false, popped := false, pc := k.pc + 16 }

variable {c : CoreId}

/-- LSYNC issues: its core holds. -/
theorem exec_lsync (h : s.StandsOnLong c 0x18) :
    exec (.lsync c) s = .next (s.updCore (coreKey c) (fun k => { k with holding := true })) :=
  congrArg Host.Outcome.next (h.issueLong (isLop 0x18) (fun _ => s.updCore (coreKey c) (fun k => { k with holding := true })) rfl)

/-- An LSYNC that has taken no token goes on waiting while its WAIT is not satisfied or a queue ahead of it is to have the token. -/
theorem exec_lsyncRelease_waits (hpopped : (s.core (coreKey c)).popped = false)
    (h : s.waitOk (coreBench c) (coreUnit c) (s.fetchLong c) = false
      ∨ s.outranked (coreBench c) (coreUnit c) (s.fetchLong c) allQueues = true) :
    exec (.lsyncRelease c) s = .next s := by
  have hwaits : (!(s.core (coreKey c)).popped && (!s.waitOk (coreBench c) (coreUnit c) (s.fetchLong c)
      || s.outranked (coreBench c) (coreUnit c) (s.fetchLong c) allQueues)) = true := by
    rcases h with h | h <;> simp [hpopped, h]
  refine congrArg Host.Outcome.next ?_
  simp only [hwaits, if_true, ite_self]

/-- What an LSYNC takes when it goes on: nothing, if it has taken its token before. -/
def State.afterWait (s : State) (c : CoreId) : State :=
  if (s.core (coreKey c)).popped then s else s.takeWait (coreBench c) (coreUnit c) (s.fetchLong c)

/-- A held LSYNC whose WAIT is satisfied, ahead of which no queue stands, and whose SIGNAL has room, gives its SIGNAL, and its core goes
on. -/
theorem exec_lsyncRelease_goesOn (hhold : (s.core (coreKey c)).holding = true)
    (hpark : (s.face (coreBench c) (coreUnit c)).parked = false)
    (hwait : s.waitOk (coreBench c) (coreUnit c) (s.fetchLong c) = true)
    (hrank : s.outranked (coreBench c) (coreUnit c) (s.fetchLong c) allQueues = false)
    (hroom : (s.afterWait c).signalRoom (coreBench c) (coreUnit c) (s.fetchLong c) = true) :
    exec (.lsyncRelease c) s =
      .next (((s.afterWait c).giveSignal (coreBench c) (coreUnit c) (s.fetchLong c)).updCore (coreKey c) Core.released) := by
  refine congrArg Host.Outcome.next ?_
  simp only [hhold, hpark, hwait, hrank, Bool.not_true, Bool.or_self, Bool.and_false, Bool.false_eq_true, if_false]
  exact if_pos hroom

/-- In flag mode a held LSYNC takes nothing, and its SIGNAL has room. -/
theorem exec_lsyncRelease_flagMode (hhold : (s.core (coreKey c)).holding = true)
    (hpark : (s.face (coreBench c) (coreUnit c)).parked = false) (hmode : s.tokenMode (coreBench c) (coreUnit c) = false)
    (hwait : s.waitOk (coreBench c) (coreUnit c) (s.fetchLong c) = true) :
    exec (.lsyncRelease c) s =
      .next ((s.giveSignal (coreBench c) (coreUnit c) (s.fetchLong c)).updCore (coreKey c) Core.released) := by
  have htake : s.afterWait c = s := by simp [State.afterWait, State.takeWait, hmode]
  have hroom : (s.afterWait c).signalRoom (coreBench c) (coreUnit c) (s.fetchLong c) = true := by
    simp [htake, State.signalRoom, hmode]
  rw [exec_lsyncRelease_goesOn hhold hpark hwait (State.outranked_of_flagMode hmode _) hroom, htake]

/-- In token mode a held LSYNC with WC = 1 and SK = 2 on two queues takes a token of the one and pushes one to the other. -/
theorem exec_lsyncRelease_tokenMode (hhold : (s.core (coreKey c)).holding = true)
    (hpark : (s.face (coreBench c) (coreUnit c)).parked = false) (hmode : s.tokenMode (coreBench c) (coreUnit c) = true)
    (hpopped : (s.core (coreKey c)).popped = false) (hwc : lfWc (s.fetchLong c) = true) (hsk : lfSk (s.fetchLong c) = 2)
    (hne : lfSix (s.fetchLong c) % 16 ≠ lfWcn (s.fetchLong c))
    (hsome : 1 ≤ s.tokens (coreBench c) (coreUnit c) (lfWcn (s.fetchLong c)))
    (hrank : s.outranked (coreBench c) (coreUnit c) (s.fetchLong c) allQueues = false)
    (hroom : s.tokens (coreBench c) (coreUnit c) (lfSix (s.fetchLong c) % 16) < 1024) :
    exec (.lsyncRelease c) s =
      .next (((s.popToken (coreBench c) (coreUnit c) (lfWcn (s.fetchLong c))).pushTokens (coreBench c) (coreUnit c)
        (lfSix (s.fetchLong c) % 16) 1).updCore (coreKey c) Core.released) := by
  have htake : s.afterWait c = s.popToken (coreBench c) (coreUnit c) (lfWcn (s.fetchLong c)) := by
    simp [State.afterWait, State.takeWait, hpopped, hmode, hwc]
  have hmodeAfter : (s.popToken (coreBench c) (coreUnit c) (lfWcn (s.fetchLong c))).tokenMode (coreBench c) (coreUnit c) = true := hmode
  have hwait : s.waitOk (coreBench c) (coreUnit c) (s.fetchLong c) = true := by simp [State.waitOk, hmode, hsome]
  have hroomAfter : (s.afterWait c).signalRoom (coreBench c) (coreUnit c) (s.fetchLong c) = true := by
    simp [htake, State.signalRoom, State.tokens_popToken, hne, hroom]
  rw [exec_lsyncRelease_goesOn hhold hpark hwait hrank hroomAfter, htake]
  simp [State.giveSignal, hmodeAfter, hsk]

end Sys2Proof.Machine

open Sys2Proof Sys2Proof.Machine

/-- Settles O22, by what LSYNC does at issue, while it waits, and when it goes on in flag mode and in token mode. -/
theorem lsyncHoldsAndReleases : Obligations.LsyncHoldsAndReleases := by
  unfold Obligations.LsyncHoldsAndReleases
  intro c s b u k ws
  refine ⟨fun h => ?_, fun _ hpopped hwait => ?_, fun hhold hpark hmode hwait => ?_,
    fun hhold hpark hmode hpopped hwc hsk hne htokens hroom => ?_,
    fun q e rest _ hmode hpopped hwc hlast hhead hready hpops hsame => ?_⟩
  · refine ⟨_, exec_lsync h, ⟨rfl, fun j hj => ?_⟩, ?_⟩
    · rw [State.core_updCore, if_neg hj]
    · rw [State.core_updCore, if_pos rfl]
  · exact exec_lsyncRelease_waits hpopped (.inl hwait)
  · refine ⟨_, exec_lsyncRelease_flagMode hhold hpark hmode hwait, s.giveSignal_signals b u ws, (s.giveSignal_keeps b u ws).2, ?_,
      fun j hj => ?_⟩
    · rw [State.core_updCore, if_pos rfl, State.core_giveSignal]; rfl
    · rw [State.core_updCore, if_neg hj, State.core_giveSignal]
  · have hrank : s.outranked b u ws allQueues = false :=
      htokens.elim (fun htwo => State.outranked_of_two_tokens htwo _) fun hone => State.outranked_of_queuesEmpty hone.2
    have hsome : 1 ≤ s.tokens b u (lfWcn ws) := by omega
    refine ⟨_, exec_lsyncRelease_tokenMode hhold hpark hmode hpopped hwc hsk hne hsome hrank hroom, rfl, ?_, ?_, ?_⟩
    · rw [State.tokens_updCore, State.tokens_pushTokens, State.tokens_popToken, if_pos rfl, if_neg hne.symm]
      exact Nat.sub_add_cancel hsome
    · rw [State.tokens_updCore, State.tokens_pushTokens, State.tokens_popToken, if_pos rfl, if_neg hne]; rfl
    · rw [State.core_updCore, if_pos rfl]; rfl
  · exact exec_lsyncRelease_waits hpopped (.inr (State.outranked_of_readyHead hmode hwc hlast hhead hready hpops hsame))

end
